-- ==== Sys2Proof/Word.lean ====
section
/-! DEFINITION. The word types of the block: the 64-bit word (R8), the byte of a byte-serial transport (R47), the
8-bit index 0..255 of an internal array, and an array of 256 whole words (R6, R40, R42). -/

namespace Sys2Proof

/-- A word: a 64-bit unsigned integer (R8). `+` and `-` wrap mod 2^64 (R9); `<<<` and `>>>` are logical (R10). -/
abbrev Word := BitVec 64

/-- A byte of a byte-serial transport outside the core (R47, R67). -/
abbrev Byte := BitVec 8

/-- An index 0..255 of an internal array or of the SEED operand (R40). -/
abbrev Index := Fin 256

/-- 256 whole words: `memory`, `results`, or the SEED operand `S` (R20, R21, R65). The size is fixed for the lifetime
of the generator (R6, R31), so the type carries it. -/
abbrev Words := Vector Word 256

end Sys2Proof
end

