-- ==== Sys2Proof/Config.lean ====
section
/-! DEFINITION. The open parameters of the block (R7): what is fixed before reset and does not change during a launch
(R192), and the draw of the contents after reset (R32). -/

namespace Sys2Proof

/-- The values of WORD_BYTE_ORDER (R7, D13). -/
inductive ByteOrder where
  | little
  | big
deriving DecidableEq, Repr

/-- The configuration of one instance (R7, R17, R192). -/
structure Config where
  /-- EXPOSE_GENERATE: whether the code 0x02 is GEN or Reserved (R7, R62, D6). -/
  exposeGenerate : Bool
  /-- WORD_BYTE_ORDER: the byte order of a byte-serial transport of words outside the core (R7, R47, D13). -/
  wordByteOrder : ByteOrder
deriving DecidableEq, Repr

/-- DESIGN CHOICE (entries 2 and 3): the configuration `State.reset` has. The spec leaves both parameters open; a
statement about every state, or about every `State.launch`, holds for every value of them. -/
def Config.atReset : Config := { exposeGenerate := true, wordByteOrder := .little }

/-- RESET_CONTENTS: one draw of the elements that reset leaves unspecified (R7, R32, D8). -/
structure ResetContents where
  memory : Words
  results : Words
  accA : Word
  accB : Word
  accC : Word
  /-- The draw of `cursor`, within 0..256 (R32): see `ResetContents.wellFormed`. -/
  cursor : BitVec 9
deriving DecidableEq, Repr

/-- DESIGN CHOICE (entry 1): the draw `State.reset` uses, all zero. The spec gives no reset value, and says that no
claim may depend on one (D8). -/
def ResetContents.zero : ResetContents :=
  { memory := Vector.replicate 256 0, results := Vector.replicate 256 0, accA := 0, accB := 0, accC := 0, cursor := 0 }

end Sys2Proof
end

