-- ==== Sys2Proof/Syntax.lean ====
section
/-! DEFINITION. The commands of the block, one constructor per row of spec/opcode_table.json (R60, R70). -/

namespace Sys2Proof

/-- A command the host can issue (R15, R70). MIX, FLAVOUR, STEP and BLOCK are internal operations and no commands. -/
inductive Instr where
  /-- NEXT: serve one output word (R150). -/
  | next
  /-- SEED: expand the seed (R100); `useSeed` is the flag U (R63), `material` the operand vector S, which every
  SEED carries (R65). -/
  | seed (useSeed : Bool) (material : Words)
  /-- GEN: run the Block Generator once (R120). -/
  | gen
deriving DecidableEq, Repr

end Sys2Proof
end

