-- ==== Sys2Proof/WellFormed.lean ====
section
/-! DEFINITION. Which commands a host may write for a given configuration, and which draws of the reset contents the
spec allows. The sizes of the arrays and of the SEED operand (R31, R65) are carried by the type `Words`. -/

namespace Sys2Proof

/-- A command is well-formed for a configuration when its code is not Reserved there: GEN only when EXPOSE_GENERATE
holds (R62, R68). Any seed material is accepted (R65, R112). -/
def Instr.wellFormed (cfg : Config) : Instr → Bool
  | .next => true
  | .seed _ _ => true
  | .gen => cfg.exposeGenerate

/-- The drawn cursor lies within 0..256 (R32). -/
def ResetContents.wellFormed (d : ResetContents) : Bool := decide (d.cursor.toNat ≤ 256)

end Sys2Proof
end

