-- ==== Sys2Proof/Decode.lean ====
section
/-! DEFINITION. From the code of a transaction to the command (R61, R62), total on all codes, and back; and the
byte-serial form of a transaction (R47, R67), whose byte order is the parameter WORD_BYTE_ORDER (D13). -/

namespace Sys2Proof

/-- The request part of a command transaction (R60). The operand lines are meaningful with a SEED code only (R65);
with any other code nothing reads them (entry 11). -/
structure Transaction where
  /-- The 8-bit command code CMD (R61). -/
  cmd : Byte
  /-- The operand vector S[0..255] (R65). -/
  operand : Words
deriving DecidableEq, Repr

/-- Why a decoder answers no command. -/
inductive DecodeError where
  /-- The code is Reserved (R62, R64). -/
  | reserved (cmd : Byte)
  /-- A byte-serial transaction ends before its length (R67). -/
  | incomplete
deriving DecidableEq, Repr

/-! ### Fields of the code (R61) -/

/-- OP = CMD[1:0]. -/
def cmdOp (cmd : Byte) : BitVec 2 := cmd.extractLsb' 0 2

/-- U = CMD[2]. -/
def cmdUseSeed (cmd : Byte) : Bool := cmd.getLsbD 2

/-- Z = CMD[7:3]. -/
def cmdZ (cmd : Byte) : BitVec 5 := cmd.extractLsb' 3 5

/-- A code from its fields: Z is zero, then U, then OP (R61). -/
def cmdOf (useSeed : Bool) (op : BitVec 2) : Byte := 0b00000#5 ++ BitVec.ofBool useSeed ++ op

/-- The code of NEXT (R62, R70). -/
def cmdNext : Byte := cmdOf false 0b00#2

/-- The code of SEED (R62, R70). -/
def cmdSeed (useSeed : Bool) : Byte := cmdOf useSeed 0b01#2

/-- The code of GEN (R62, R70). -/
def cmdGen : Byte := cmdOf false 0b10#2

/-! ### Decoding and encoding a transaction -/

/-- The decoder, the seven lines of R62 in their order. -/
def decode (cfg : Config) (t : Transaction) : Except DecodeError Instr :=
  if cmdZ t.cmd ≠ 0b00000#5 then .error (.reserved t.cmd)
  else if cmdOp t.cmd = 0b11#2 then .error (.reserved t.cmd)
  else if cmdOp t.cmd = 0b01#2 then .ok (.seed (cmdUseSeed t.cmd) t.operand)
  else if cmdUseSeed t.cmd then .error (.reserved t.cmd)
  else if cmdOp t.cmd = 0b00#2 then .ok .next
  else if cfg.exposeGenerate then .ok .gen
  else .error (.reserved t.cmd)

/-- Operand lines of zeros. -/
def zeroWords : Words := Vector.replicate 256 0

/-- The transaction of a command (R61, R65, R70); a command without operands leaves the operand lines zero. -/
def encode : Instr → Transaction
  | .next => { cmd := cmdNext, operand := zeroWords }
  | .seed useSeed material => { cmd := cmdSeed useSeed, operand := material }
  | .gen => { cmd := cmdGen, operand := zeroWords }

/-! ### The byte-serial form (R47, R67) -/

/-- Byte `k` of a word, byte 0 the least significant. -/
def wordByte (w : Word) (k : Nat) : Byte := w.extractLsb' (8 * k) 8

/-- The eight bytes of a word in transport order (D13). -/
def bytesOfWord (order : ByteOrder) (w : Word) : List Byte :=
  let little := (List.range 8).map (wordByte w)
  match order with
  | .little => little
  | .big => little.reverse

/-- The word of bytes given least significant first. -/
def wordOfLittle : List Byte → Word
  | [] => 0
  | b :: bs => b.setWidth 64 ||| (wordOfLittle bs <<< 8)

/-- The word of eight bytes in transport order (D13). -/
def wordOfBytes (order : ByteOrder) (bs : List Byte) : Word :=
  match order with
  | .little => wordOfLittle bs
  | .big => wordOfLittle bs.reverse

/-- The 2048 bytes of an operand vector, S[0] first (R67). -/
def bytesOfWords (order : ByteOrder) (v : Words) : List Byte := v.toList.flatMap (bytesOfWord order)

/-- The operand vector of 2048 bytes, S[0] first (R67). -/
def wordsOfBytes (order : ByteOrder) (bs : List Byte) : Words :=
  Vector.ofFn fun k : Fin 256 => wordOfBytes order ((bs.drop (8 * k.val)).take 8)

/-- Whether a code's transaction carries an operand vector: the SEED row's match 0x01 and mask 0xFB (R60, R67, R70).
DESIGN CHOICE (entry 17): no Reserved code's does, also where its OP is SEED's (0x09) or 0b11; R67 gives those codes no
length of their own. -/
def carriesOperand (cmd : Byte) : Bool := cmd &&& 0xFB#8 == 0x01#8

/-- The bytes of a transaction: the code, then 2048 operand bytes for SEED (R67; entry 10), and the code alone for a
Reserved code (DESIGN CHOICE, entry 17). -/
def bytesOfTransaction (order : ByteOrder) (t : Transaction) : List Byte :=
  t.cmd :: (if carriesOperand t.cmd then bytesOfWords order t.operand else [])

/-- The first transaction of a byte stream and the bytes after it (R67; a Reserved code takes one byte, DESIGN CHOICE,
entry 17). -/
def parse (order : ByteOrder) : List Byte → Except DecodeError (Transaction × List Byte)
  | [] => .error .incomplete
  | cmd :: bytes =>
    if carriesOperand cmd then
      if bytes.length < 2048 then .error .incomplete
      else .ok ({ cmd, operand := wordsOfBytes order bytes }, bytes.drop 2048)
    else .ok ({ cmd, operand := zeroWords }, bytes)

/-- The first command of a byte stream and the bytes after it, or why there is none. -/
def decodeBytes (cfg : Config) (bytes : List Byte) : Except DecodeError (Instr × List Byte) :=
  match parse cfg.wordByteOrder bytes with
  | .error e => .error e
  | .ok (t, rest) =>
    match decode cfg t with
    | .error e => .error e
    | .ok i => .ok (i, rest)

/-- The bytes of a command. -/
def encodeBytes (cfg : Config) (i : Instr) : List Byte := bytesOfTransaction cfg.wordByteOrder (encode i)

/-! ### The opcode table's words -/

/-- The transaction whose bits are `w`, of which the table gives the lowest `nbits` and every bit above is 0: CMD in
bits 7..0, operand word k in bits 8+64k+63 .. 8+64k (entry 12; the table gives the operand no bits). -/
def tableTransaction (nbits w : Nat) : Transaction :=
  { cmd := BitVec.ofNat 8 (w % 2 ^ nbits)
    operand := Vector.ofFn fun k : Fin 256 => BitVec.ofNat 64 ((w % 2 ^ nbits) >>> (8 + 64 * k.val)) }

/-- The command the decoder reads from a table word, with the configuration of `State.reset`. -/
def decodeTableWord (nbits w : Nat) : Option Instr :=
  match decode Config.atReset (tableTransaction nbits w) with
  | .ok i => some i
  | .error _ => none

end Sys2Proof
end

