-- ==== Sys2Proof/Machine/State.lean ====
section
/-! DEFINITION. The state of one block instance (10_state.md), as plain data; the faults and refusals of a step; and
the state after reset (R32, R190). -/

namespace Sys2Proof.Machine

/-- A model fault kind with its recorded information (R171). -/
inductive FaultKind where
  /-- Code 1: a code R62 calls Reserved; records the CMD. -/
  | reservedCommand (cmd : Byte)
  /-- Code 2: a command that overlaps another or comes from a second host; records that command's CMD. -/
  | race (cmd : Byte)
  /-- Code 3: NEXT or GEN while `seeded` is 0; records the CMD. -/
  | unseeded (cmd : Byte)
  /-- Code 4: NEXT while cursor > 256; records the cursor value. -/
  | illFormedState (cursor : BitVec 9)
deriving DecidableEq, Repr

/-- Why a step stops. -/
inductive Fault where
  /-- Raised by every step, and by every command, on an instance whose `fault` is set: "a faulted instance has no
  step" (R172, I10: stuck). Safe: a run that has faulted has no further step, so nothing more can be claimed of it. -/
  | stuck (kind : FaultKind)
deriving DecidableEq, Repr

/-- Why a step gives no meaning. -/
inductive Refusal where
  /-- Raised by an arm of exec that has no meaning yet; no arm does so. Safe: the run stops. -/
  | notModelled (mnemonic : String)
deriving DecidableEq, Repr

/-- How the host issued a request (R171, R180, R198; entry 7). -/
inductive Issue where
  /-- By the one host of the instance, after the previous command completed. -/
  | alone
  /-- While another command on the instance had not completed. -/
  | overlapping
  /-- By a second host. -/
  | secondHost
deriving DecidableEq, Repr

/-- A request as it arrives at the block: the transaction (R60) and how it was issued. -/
structure Request where
  transaction : Transaction
  issue : Issue
deriving DecidableEq, Repr

/-- The state of one instance. The first eight fields are the spec's (R20 to R27); `config` holds the parameters fixed
before reset (R7); `pending` and `output` are the model's own, the two sides of the transaction interface (R60, R66;
entries 4 and 5). -/
structure State where
  /-- `memory[0..255]` (R20). -/
  memory : Words
  /-- `results[0..255]` (R21). -/
  results : Words
  /-- `acc_a` (R22). -/
  accA : Word
  /-- `acc_b` (R23). -/
  accB : Word
  /-- `acc_c` (R24). -/
  accC : Word
  /-- `cursor`, 9 bits; 257..511 are ill-formed (R25, R31, D9). -/
  cursor : BitVec 9
  /-- `seeded` (R26). -/
  seeded : Bool
  /-- `fault`: none, or the recorded fault (R27). -/
  fault : Option FaultKind
  /-- The parameters of the instance (R7, R192); no step changes them. -/
  config : Config
  /-- The requests the host has issued and the block has not taken, oldest first (R68). -/
  pending : List Request
  /-- The output stream: the responses of NEXT in issue order (R157). -/
  output : List Word
deriving DecidableEq, Repr

/-- The state after reset, for a configuration and a draw of the unspecified contents (R32, R190). -/
def State.launch (cfg : Config) (draw : ResetContents) : State :=
  { memory := draw.memory
    results := draw.results
    accA := draw.accA
    accB := draw.accB
    accC := draw.accC
    cursor := draw.cursor
    seeded := false
    fault := none
    config := cfg
    pending := []
    output := [] }

/-- DESIGN CHOICE (entries 1, 2, 3): the launch with the named configuration and the named draw. -/
def State.reset : State := State.launch Config.atReset ResetContents.zero

end Sys2Proof.Machine
end

