-- ==== Sys2Proof/Machine/Ops.lean ====
section
/-! DEFINITION. The operations every command shares: reading and writing one word of an array, recording a fault
(the only thing like an exception the block has; nothing returns from it, R172, R175), and delivering a response. -/

namespace Sys2Proof.Machine

/-- The outcome of one step of the block. -/
abbrev Outcome := Host.Outcome State Fault Refusal

/-- Read the whole word at an index (R11, R42). -/
def readWord (v : Words) (i : Index) : Word := v.get i

/-- Write the whole word at an index (R11, R42). -/
def writeWord (v : Words) (i : Index) (x : Word) : Words := v.set i x

/-- The number that names a fault kind in R171; the block has no register that holds it. -/
def faultCode : FaultKind → Nat
  | .reservedCommand _ => 1
  | .race _ => 2
  | .unseeded _ => 3
  | .illFormedState _ => 4

/-- `raise Fault(kind)`: the command's only effect is `fault <- kind` (R172; entry 6). -/
def raiseFault (kind : FaultKind) (s : State) : State := { s with fault := some kind }

/-- A command on a faulted instance has no step (R172); on any other it goes on with `effect`. -/
def unlessFaulted (s : State) (effect : Outcome) : Outcome :=
  match s.fault with
  | some kind => .fault (.stuck kind)
  | none => effect

/-- `respond(v)`: deliver the response word of a NEXT (R12, R66), the next word of the output stream (R157). -/
def respond (v : Word) (s : State) : State := { s with output := s.output ++ [v] }

end Sys2Proof.Machine
end

