-- ==== Sys2Proof/Machine/Flags.lean ====
section
/-! DEFINITION. The block has no flags or condition codes (R34); its only status bits are `fault` (Ops.lean) and
`seeded`, which this file checks and sets. -/

namespace Sys2Proof.Machine

/-- `if not seeded: raise Fault(Unseeded)`, which records the command's code (R26, R171). -/
def requireSeeded (cmd : Byte) (s : State) (effect : Outcome) : Outcome :=
  if s.seeded then effect else .next (raiseFault (.unseeded cmd) s)

/-- `seeded <- 1` (R107). -/
def markSeeded (s : State) : State := { s with seeded := true }

end Sys2Proof.Machine
end

