-- ==== Sys2Proof/Machine/Operands.lean ====
section
/-! DEFINITION. Every index form by which the rules reach an array (the table of R41). -/

namespace Sys2Proof.Machine

/-- The index INDEX(v) selects: (v >> 3) mod 256 (R43). -/
def indexOf (v : Word) : Index := Fin.ofNat 256 (v >>> 3).toNat

/-- INDEX(v): the current content of memory at that index (R43). -/
def index (memory : Words) (v : Word) : Word := readWord memory (indexOf v)

/-- m2 = (m + 128) mod 256 (R45). -/
def ahead (m : Index) : Index := Fin.ofNat 256 (m.val + 128)

/-- Index 8g + j of group g, word j (R108). -/
def groupIndex (g : Fin 32) (j : Fin 8) : Index := Fin.ofNat 256 (8 * g.val + j.val)

/-- The index of `results[cursor]`, for a cursor after its decrement, which is in 0..255 (R151). -/
def cursorIndex (cursor : BitVec 9) : Index := Fin.ofNat 256 cursor.toNat

end Sys2Proof.Machine
end

