-- ==== Sys2Proof/Machine/Block.lean ====
section
/-! DEFINITION. The Block Generator (42_block.md): FLAVOUR, STEP, BLOCK, and the command GEN. -/

namespace Sys2Proof.Machine

/-- FLAVOUR(k, a), the four expressions of R121 to R124. -/
def flavour (k : Fin 4) (a : Word) : Word :=
  match k with
  | 0 => ~~~(a ^^^ (a <<< 21))
  | 1 => a ^^^ (a >>> 5)
  | 2 => a ^^^ (a <<< 12)
  | 3 => a ^^^ (a >>> 33)

/-- What the 256 steps of one block work on: the two arrays and the temporaries a and b (R28, R126). -/
structure BlockWork where
  memory : Words
  results : Words
  a : Word
  b : Word
deriving DecidableEq, Repr

/-- STEP(i), its statements in order (R126, R194); m = r = i. -/
def blockStep (i : Index) (w : BlockWork) : BlockWork :=
  let x := readWord w.memory i
  let a := flavour (Fin.ofNat 4 i.val) w.a + readWord w.memory (ahead i)
  let y := index w.memory x + a + w.b
  let memory := writeWord w.memory i y
  let b := index memory (y >>> 8) + x
  { memory, results := writeWord w.results i b, a, b }

/-- The first n steps of a block, i = 0, ..., n - 1, strictly in order (R127, R193). -/
def blockSteps : Nat → BlockWork → BlockWork
  | 0, w => w
  | n + 1, w => blockStep (Fin.ofNat 256 n) (blockSteps n w)

/-- All 256 steps of a block (R127). Irreducible for the elaborator, so that no proof runs them by accident; the kernel
evaluates it. -/
@[irreducible] def blockRun (w : BlockWork) : BlockWork := blockSteps 256 w

/-- The prologue: a <- acc_a, acc_c <- acc_c + 1, b <- acc_b + acc_c with the incremented acc_c (R125). -/
def blockPrologue (s : State) : BlockWork :=
  { memory := s.memory, results := s.results, a := s.accA, b := s.accB + (s.accC + 1) }

/-- BLOCK(): the prologue, 256 steps, then acc_b <- b and acc_a <- a; cursor unchanged (R125, R127, R128). -/
def block (s : State) : State :=
  let w := blockRun (blockPrologue s)
  { s with memory := w.memory, results := w.results, accA := w.a, accB := w.b, accC := s.accC + 1 }

/-- GEN (R120). Its code is Reserved when EXPOSE_GENERATE is false (R62), which comes before the check of `seeded`
(R173); the decoder already says so, and the meaning says it again so that it is right by itself (entry 13). -/
def execGen (s : State) : Outcome :=
  unlessFaulted s <|
    if s.config.exposeGenerate then requireSeeded cmdGen s (.next (block s))
    else .next (raiseFault (.reservedCommand cmdGen) s)

end Sys2Proof.Machine
end

