-- ==== Sys2Proof/Machine/Cursor.lean ====
section
/-! DEFINITION. The Output Cursor (43_cursor.md): the command NEXT. -/

namespace Sys2Proof.Machine

/-- The guard of NEXTWORD: at cursor = 0, BLOCK() and cursor <- 256 (R151, R153). -/
def refill (s : State) : State := if s.cursor = 0 then { block s with cursor := 256 } else s

/-- The rest of NEXTWORD: cursor <- cursor - 1, then respond(results[cursor]) (R151). -/
def serve (s : State) : State :=
  let cursor := s.cursor - 1
  respond (readWord s.results (cursorIndex cursor)) { s with cursor }

/-- NEXT: NEXTWORD() with its checks in order (R150, R151, R173). -/
def execNext (s : State) : Outcome :=
  unlessFaulted s <|
    requireSeeded cmdNext s <|
      if 256 < s.cursor.toNat then .next (raiseFault (.illFormedState s.cursor) s)
      else .next (serve (refill s))

end Sys2Proof.Machine
end

