-- ==== Sys2Proof/Machine/Mix.lean ====
section
/-! DEFINITION. MIX, the Mixing Primitive (40_mix.md): eight rounds of three statements, each statement reading what
the statements before it left (R81, R82). -/

namespace Sys2Proof.Machine

/-- The eight working words of SEED (R80, R101). -/
structure Mixer where
  a : Word
  b : Word
  c : Word
  d : Word
  e : Word
  f : Word
  g : Word
  h : Word
deriving DecidableEq, Repr

/-- Round 1: `a -= e;  f ^= h >> 9;  h += a` (R81). -/
def mixRound1 (w : Mixer) : Mixer :=
  let a := w.a - w.e
  let f := w.f ^^^ (w.h >>> 9)
  let h := w.h + a
  { w with a, f, h }

/-- Round 2: `b -= f;  g ^= a << 9;  a += b` (R81). -/
def mixRound2 (w : Mixer) : Mixer :=
  let b := w.b - w.f
  let g := w.g ^^^ (w.a <<< 9)
  let a := w.a + b
  { w with b, g, a }

/-- Round 3: `c -= g;  h ^= b >> 23;  b += c` (R81). -/
def mixRound3 (w : Mixer) : Mixer :=
  let c := w.c - w.g
  let h := w.h ^^^ (w.b >>> 23)
  let b := w.b + c
  { w with c, h, b }

/-- Round 4: `d -= h;  a ^= c << 15;  c += d` (R81). -/
def mixRound4 (w : Mixer) : Mixer :=
  let d := w.d - w.h
  let a := w.a ^^^ (w.c <<< 15)
  let c := w.c + d
  { w with d, a, c }

/-- Round 5: `e -= a;  b ^= d >> 14;  d += e` (R81). -/
def mixRound5 (w : Mixer) : Mixer :=
  let e := w.e - w.a
  let b := w.b ^^^ (w.d >>> 14)
  let d := w.d + e
  { w with e, b, d }

/-- Round 6: `f -= b;  c ^= e << 20;  e += f` (R81). -/
def mixRound6 (w : Mixer) : Mixer :=
  let f := w.f - w.b
  let c := w.c ^^^ (w.e <<< 20)
  let e := w.e + f
  { w with f, c, e }

/-- Round 7: `g -= c;  d ^= f >> 17;  f += g` (R81). -/
def mixRound7 (w : Mixer) : Mixer :=
  let g := w.g - w.c
  let d := w.d ^^^ (w.f >>> 17)
  let f := w.f + g
  { w with g, d, f }

/-- Round 8: `h -= d;  e ^= g << 14;  g += h` (R81). -/
def mixRound8 (w : Mixer) : Mixer :=
  let h := w.h - w.d
  let e := w.e ^^^ (w.g <<< 14)
  let g := w.g + h
  { w with h, e, g }

/-- MIX: the eight rounds in order (R81). -/
def mix (w : Mixer) : Mixer :=
  mixRound8 (mixRound7 (mixRound6 (mixRound5 (mixRound4 (mixRound3 (mixRound2 (mixRound1 w)))))))

/-- Working word number j: a = 0, ..., h = 7 (R108). -/
def mixerWord (w : Mixer) (j : Fin 8) : Word :=
  match j with
  | 0 => w.a
  | 1 => w.b
  | 2 => w.c
  | 3 => w.d
  | 4 => w.e
  | 5 => w.f
  | 6 => w.g
  | 7 => w.h

end Sys2Proof.Machine
end

