-- ==== Sys2Proof/Machine/Seed.lean ====
section
/-! DEFINITION. The Seed Expansion (41_seed.md): the command SEED. -/

namespace Sys2Proof.Machine

/-- GOLDEN, the golden-ratio constant (R6, R101). -/
def golden : Word := 0x9e3779b97f4a7c13#64

/-- Step 1: all eight working words hold GOLDEN (R101). -/
def goldenMixer : Mixer :=
  { a := golden, b := golden, c := golden, d := golden, e := golden, f := golden, g := golden, h := golden }

/-- Step 2: MIX four times with no other input (R102). -/
def scrambled : Mixer := mix (mix (mix (mix goldenMixer)))

/-- What the two passes work on: the working words, carried from group to group and never re-initialised, and the
memory they fill (R103, R104). -/
structure SeedWork where
  words : Mixer
  memory : Words
deriving DecidableEq, Repr

/-- `a += src[8g+0]; ...; h += src[8g+7]` (R100, R108). -/
def addGroup (src : Words) (g : Fin 32) (w : Mixer) : Mixer :=
  { a := w.a + readWord src (groupIndex g 0)
    b := w.b + readWord src (groupIndex g 1)
    c := w.c + readWord src (groupIndex g 2)
    d := w.d + readWord src (groupIndex g 3)
    e := w.e + readWord src (groupIndex g 4)
    f := w.f + readWord src (groupIndex g 5)
    g := w.g + readWord src (groupIndex g 6)
    h := w.h + readWord src (groupIndex g 7) }

/-- `memory[8g+0] <- a; ...; memory[8g+7] <- h` (R100, R108). -/
def storeGroup (g : Fin 32) (w : Mixer) (memory : Words) : Words :=
  let memory := writeWord memory (groupIndex g 0) w.a
  let memory := writeWord memory (groupIndex g 1) w.b
  let memory := writeWord memory (groupIndex g 2) w.c
  let memory := writeWord memory (groupIndex g 3) w.d
  let memory := writeWord memory (groupIndex g 4) w.e
  let memory := writeWord memory (groupIndex g 5) w.f
  let memory := writeWord memory (groupIndex g 6) w.g
  writeWord memory (groupIndex g 7) w.h

/-- One group of pass 1: add the group's seed words if U = 1, MIX, write the group (R103). -/
def pass1Group (useSeed : Bool) (material : Words) (g : Fin 32) (w : SeedWork) : SeedWork :=
  let words := mix (if useSeed then addGroup material g w.words else w.words)
  { words, memory := storeGroup g words w.memory }

/-- The first n groups of pass 1, in order (R103). -/
def pass1 (useSeed : Bool) (material : Words) : Nat → SeedWork → SeedWork
  | 0, w => w
  | n + 1, w => pass1Group useSeed material (Fin.ofNat 32 n) (pass1 useSeed material n w)

/-- One group of pass 2: add the group's memory words, MIX, overwrite the group (R104). -/
def pass2Group (g : Fin 32) (w : SeedWork) : SeedWork :=
  let words := mix (addGroup w.memory g w.words)
  { words, memory := storeGroup g words w.memory }

/-- The first n groups of pass 2, in order (R104). -/
def pass2 : Nat → SeedWork → SeedWork
  | 0, w => w
  | n + 1, w => pass2Group (Fin.ofNat 32 n) (pass2 n w)

/-- Steps 1 to 4: the two passes from the scrambled constant, pass 2 only when U = 1 (R101 to R104). Pass 1 overwrites
every word of the memory it is given. Irreducible for the elaborator, as blockRun is. -/
@[irreducible] def expandMemory (useSeed : Bool) (material memory : Words) : Words :=
  let afterPass1 := pass1 useSeed material 32 { words := scrambled, memory }
  if useSeed then (pass2 32 afterPass1).memory else afterPass1.memory

/-- SEEDEXP(S, U): steps 1 to 7 in order (R100 to R107). -/
def seedExpand (useSeed : Bool) (material : Words) (s : State) : State :=
  let s := { s with memory := expandMemory useSeed material s.memory }
  let s := { s with accA := 0, accB := 0, accC := 0 }
  let s := block s
  markSeeded { s with cursor := 256 }

/-- SEED (R100): never a fault of its own (R112). -/
def execSeed (useSeed : Bool) (material : Words) (s : State) : Outcome :=
  unlessFaulted s (.next (seedExpand useSeed material s))

end Sys2Proof.Machine
end

