-- ==== Sys2Proof/Machine/Dispatch.lean ====
section
/-! DEFINITION. From a command to its meaning: one arm per constructor of Instr. -/

namespace Sys2Proof.Machine

def exec (i : Instr) (s : State) : Host.Outcome State Fault Refusal :=
  match i with
  | .next => Sys2Proof.Machine.execNext s
  | .seed useSeed material => Sys2Proof.Machine.execSeed useSeed material s
  | .gen => Sys2Proof.Machine.execGen s

end Sys2Proof.Machine
end

