-- ==== Sys2Proof/Machine/Issue.lean ====
section
/-! DEFINITION. Taking the host's next request: the block has no program counter and fetches nothing from memory
(R33, R51); it takes the oldest request the host has issued (R52), checks for a race, then decodes (R173). -/

namespace Sys2Proof.Machine

/-- What taking the next request comes to. -/
inductive Taken where
  /-- The instance is faulted: it has no step (R172). -/
  | stuck (kind : FaultKind)
  /-- No request is pending: the block holds its state (R182). -/
  | idle
  /-- The request is a fault before any command runs: the fault, and the state without the request. -/
  | raised (kind : FaultKind) (s : State)
  /-- The request is a command: the command, and the state without the request. -/
  | command (i : Instr) (s : State)

/-- A request that overlaps another or comes from a second host is a Race (R171, R180). -/
def Request.races (r : Request) : Bool := decide (r.issue ≠ .alone)

/-- Take the oldest pending request: Race is checked at issue, before decode (R173). -/
def takeRequest (s : State) : Taken :=
  match s.fault with
  | some kind => .stuck kind
  | none =>
    match s.pending with
    | [] => .idle
    | r :: rest =>
      if r.races then .raised (.race r.transaction.cmd) { s with pending := rest }
      else
        match decode s.config r.transaction with
        | .error _ => .raised (.reservedCommand r.transaction.cmd) { s with pending := rest }
        | .ok i => .command i { s with pending := rest }

/-- The request of a transaction issued by the one host when the block is free. -/
def requestAlone (t : Transaction) : Request := { transaction := t, issue := .alone }

/-- Put a transaction before every other pending request. -/
def placeFirst (t : Transaction) (s : State) : State := { s with pending := requestAlone t :: s.pending }

/-- The host issues commands one after another (R68): their transactions join the pending requests in order. -/
def issueCommands (program : List Instr) (s : State) : State :=
  { s with pending := s.pending ++ program.map fun i => requestAlone (encode i) }

end Sys2Proof.Machine
end

