-- ==== Sys2Proof/Machine/Step.lean ====
section
/-! DEFINITION. One step of the block: one command from issue to completion, atomically (R48, R60). -/

namespace Sys2Proof.Machine

/-- One transition: take the oldest request; a faulted instance has none (R172), an idle block holds its state
(R182), a race or a Reserved code records its fault (R171), and a command runs. -/
def step (s : State) : Host.Outcome State Fault Refusal :=
  match takeRequest s with
  | .stuck kind => .fault (.stuck kind)
  | .idle => .next s
  | .raised kind s' => .next (raiseFault kind s')
  | .command i s' => exec i s'

/-- The opcode-table word as the next request the block takes. -/
def State.withFetchWord (s : State) (nbits w : Nat) : State := placeFirst (tableTransaction nbits w) s

end Sys2Proof.Machine
end

