-- ==== Sys2Proof/Machine/Instances.lean ====
section
/-! DEFINITION. Several independent instances (R179): each has its own state, and a command to one reads and writes
that one's state only. -/

namespace Sys2Proof.Machine

/-- One step of instance number `k`; every other instance is as it was. `none` where there is no instance `k`. -/
def stepInstance (k : Nat) (all : List State) : Option (Host.Outcome (List State) Fault Refusal) :=
  match all[k]? with
  | none => none
  | some s =>
    match step s with
    | .next s' => some (.next (all.set k s'))
    | .fault r => some (.fault r)
    | .refused r => some (.refused r)

end Sys2Proof.Machine
end

