-- ==== Sys2Proof/Machine/Transport.lean ====
section
/-! DEFINITION. The byte-serial side of the interface (R47, R67, D13): bytes from the host become requests, responses
become bytes. It is outside the core: no command's effect depends on it. -/

namespace Sys2Proof.Machine

/-- The transactions of a byte stream, at most `fuel` of them; the stream must end where a transaction ends. Every
transaction takes at least one byte, so the stream's length is enough fuel. -/
def parseAll (order : ByteOrder) : Nat → List Byte → Except DecodeError (List Transaction)
  | _, [] => .ok []
  | 0, _ :: _ => .error .incomplete
  | fuel + 1, bytes =>
    match parse order bytes with
    | .error e => .error e
    | .ok (t, rest) =>
      match parseAll order fuel rest with
      | .error e => .error e
      | .ok ts => .ok (t :: ts)

/-- The host sends bytes, one complete transaction after another (R67). -/
def receiveBytes (bytes : List Byte) (s : State) : Except DecodeError State :=
  match parseAll s.config.wordByteOrder bytes.length bytes with
  | .error e => .error e
  | .ok ts => .ok { s with pending := s.pending ++ ts.map requestAlone }

/-- The output stream as bytes, eight for each response (R66, R67). -/
def responseBytes (s : State) : List Byte := s.output.flatMap (bytesOfWord s.config.wordByteOrder)

end Sys2Proof.Machine
end

