-- ==== Sys2Proof/Safety.lean ====
section
/-! DEFINITION. The terms claims use: well-formed states and the invariant, runs, what the host can tell two states
apart by, and the rules R83, R100 and R126 read as relations, independently of how the machine computes them. -/

namespace Sys2Proof.Machine

/-! ### States -/

/-- No fault is recorded: the premise of every claim about a run (R172). -/
abbrev State.live (s : State) : Prop := s.fault = none

/-- WF(s): the cursor is in [0, 256]; the sizes of the arrays are carried by their type (R31). -/
abbrev State.wellFormed (s : State) : Prop := s.cursor.toNat ≤ 256

/-- What every step keeps: WF, and acc_b = results[255] once seeded, since only BLOCK writes either (R31, R129). -/
abbrev State.Inv (s : State) : Prop := s.wellFormed ∧ (s.seeded = true → s.accB = readWord s.results 255)

/-- The elements of R20 to R26 agree. -/
def SameGenerator (s t : State) : Prop :=
  s.memory = t.memory ∧ s.results = t.results ∧ s.accA = t.accA ∧ s.accB = t.accB ∧ s.accC = t.accC ∧
    s.cursor = t.cursor ∧ s.seeded = t.seeded

/-- The same instance with another WORD_BYTE_ORDER. -/
def State.withByteOrder (order : ByteOrder) (s : State) : State :=
  { s with config := { s.config with wordByteOrder := order } }

/-! ### Runs -/

/-- k steps, one after another, stopping at the first fault or refusal (R52, R200). -/
def runSteps : Nat → State → Outcome
  | 0, s => .next s
  | k + 1, s =>
    match step s with
    | .next s' => runSteps k s'
    | .fault r => .fault r
    | .refused r => .refused r

/-- A run completes when all its commands have run and no fault is recorded: a faulted state is never the final state
of a run (R172). -/
def Completes (k : Nat) (s t : State) : Prop := runSteps k s = .next t ∧ t.live ∧ t.pending = []

/-- Apply a change of state to the state an outcome answers. -/
def mapNext (f : State → State) : Outcome → Outcome
  | .next s => .next (f s)
  | .fault r => .fault r
  | .refused r => .refused r

/-- Two outcomes agree in everything but the output stream's past: their output streams continue `past1` and `past2`
by the same words (R157). -/
def SameContinuation (past1 past2 : List Word) : Outcome → Outcome → Prop
  | .next t1, .next t2 =>
    SameGenerator t1 t2 ∧ t1.fault = t2.fault ∧ t1.config = t2.config ∧ t1.pending = t2.pending ∧
      ∃ words, t1.output = past1 ++ words ∧ t2.output = past2 ++ words
  | .fault r1, .fault r2 => r1 = r2
  | _, _ => False

/-- Two outcomes agree in everything but contents that only reset has written: before a SEED the arrays, accumulators
and cursor may differ, after one nothing does (R32). -/
def SameButResetContents : Outcome → Outcome → Prop
  | .next t1, .next t2 =>
    t1.output = t2.output ∧ t1.fault = t2.fault ∧ t1.seeded = t2.seeded ∧ t1.config = t2.config ∧
      t1.pending = t2.pending ∧ (t1.seeded = true → t1 = t2)
  | .fault r1, .fault r2 => r1 = r2
  | _, _ => False

/-! ### The rules as relations -/

/-- Round n of MIX by the pattern of R83, with n counted from 0 here: the shift of round n. -/
def patternShift (n : Fin 8) (v : Word) : Word :=
  match n with
  | 0 => v >>> 9
  | 1 => v <<< 9
  | 2 => v >>> 23
  | 3 => v <<< 15
  | 4 => v >>> 14
  | 5 => v <<< 20
  | 6 => v >>> 17
  | 7 => v <<< 14

/-- Round n of MIX by the pattern of R83, on the word sequence with indices mod 8 (n counted from 0 here, so that the
rule's w[n-1], w[n+3], w[n+4], w[n+6] are w n, w (n+4), w (n+5), w (n+7)). -/
def patternRound (w : Fin 8 → Word) (n : Fin 8) : Fin 8 → Word :=
  let w := Function.update w n (w n - w (n + 4))
  let w := Function.update w (n + 5) (w (n + 5) ^^^ patternShift n (w (n + 7)))
  Function.update w (n + 7) (w (n + 7) + w n)

/-- The expressions of R121 to R124, by the step index mod 4 (R134). -/
def flavourOfStep (i : Nat) (a : Word) : Word :=
  if i % 4 = 0 then ~~~(a ^^^ (a <<< 21))
  else if i % 4 = 1 then a ^^^ (a >>> 5)
  else if i % 4 = 2 then a ^^^ (a <<< 12)
  else a ^^^ (a >>> 33)

/-- STEP(i) takes `w` to `w'`: the equations of R126, with INDEX(v) read as the word at floor(v / 8) mod 256 (R43) and
INDEX(y >> 8) as the word at floor(y / 2048) mod 256 of the memory after the write (R44). -/
def IsStep (i : Index) (w w' : BlockWork) : Prop :=
  ∃ x y : Word,
    x = readWord w.memory i ∧
    w'.a = flavourOfStep i.val w.a + readWord w.memory (Fin.ofNat 256 (i.val + 128)) ∧
    y = readWord w.memory (Fin.ofNat 256 (x.toNat / 8)) + w'.a + w.b ∧
    w'.memory = writeWord w.memory i y ∧
    w'.b = readWord w'.memory (Fin.ofNat 256 (y.toNat / 2048)) + x ∧
    w'.results = writeWord w.results i w'.b

/-- BLOCK() takes `s` to `t`: a chain of 256 steps from the prologue's values to the epilogue's, everything else as it
was (R125, R127, R128). -/
def IsBlock (s t : State) : Prop :=
  ∃ w : Nat → BlockWork,
    w 0 = { memory := s.memory, results := s.results, a := s.accA, b := s.accB + (s.accC + 1) } ∧
    (∀ i : Index, IsStep i (w i.val) (w (i.val + 1))) ∧
    t = { s with memory := (w 256).memory, results := (w 256).results, accA := (w 256).a, accB := (w 256).b,
                 accC := s.accC + 1 }

/-- SEEDEXP(S, U) takes `s` to `t` (R101 to R108): `words1 g` and `words2 g` are the working words before group g of
each pass, `memory1` and `memory2` the memory each pass leaves. It names no word of the memory of `s`. -/
def IsSeedExpansion (useSeed : Bool) (material : Words) (s t : State) : Prop :=
  ∃ (words1 words2 : Nat → Mixer) (memory1 memory2 : Words) (b : State),
    words1 0 = mix (mix (mix (mix
      { a := 0x9e3779b97f4a7c13, b := 0x9e3779b97f4a7c13, c := 0x9e3779b97f4a7c13, d := 0x9e3779b97f4a7c13,
        e := 0x9e3779b97f4a7c13, f := 0x9e3779b97f4a7c13, g := 0x9e3779b97f4a7c13, h := 0x9e3779b97f4a7c13 }))) ∧
    (∀ g : Fin 32, words1 (g.val + 1) =
      mix (if useSeed = true then addGroup material g (words1 g.val) else words1 g.val)) ∧
    (∀ (g : Fin 32) (j : Fin 8), readWord memory1 (groupIndex g j) = mixerWord (words1 (g.val + 1)) j) ∧
    (useSeed = false → memory2 = memory1) ∧
    (useSeed = true →
      words2 0 = words1 32 ∧
      (∀ g : Fin 32, words2 (g.val + 1) = mix (addGroup memory1 g (words2 g.val))) ∧
      (∀ (g : Fin 32) (j : Fin 8), readWord memory2 (groupIndex g j) = mixerWord (words2 (g.val + 1)) j)) ∧
    IsBlock { s with memory := memory2, accA := 0, accB := 0, accC := 0 } b ∧
    t = { b with cursor := 256, seeded := true }

end Sys2Proof.Machine
end

