-- ==== Sys2Proof/Certificates/Slice0/Obligations.lean ====
section
/-! DEFINITION. The statements for the provers. Each docstring names the rule of spec/ it formalises. -/

open Sys2Proof Sys2Proof.Machine

/-! ### Codes, transactions and bytes -/

/-- R62: the decoder's answer for every code and both values of EXPOSE_GENERATE; and a Reserved code, issued to a live
instance, records ReservedCommand and changes nothing else. -/
def Obligations.CodesDecodeByTheTable : Prop :=
  (∀ (cfg : Config) (t : Transaction),
    (t.cmd = 0x00 → decode cfg t = .ok .next) ∧
    (t.cmd = 0x01 → decode cfg t = .ok (.seed false t.operand)) ∧
    (t.cmd = 0x05 → decode cfg t = .ok (.seed true t.operand)) ∧
    (t.cmd = 0x02 → cfg.exposeGenerate = true → decode cfg t = .ok .gen) ∧
    (t.cmd = 0x02 → cfg.exposeGenerate = false → decode cfg t = .error (.reserved 0x02)) ∧
    (t.cmd ≠ 0x00 → t.cmd ≠ 0x01 → t.cmd ≠ 0x05 → t.cmd ≠ 0x02 → decode cfg t = .error (.reserved t.cmd))) ∧
  (∀ (s : State) (t : Transaction) (rest : List Request) (e : DecodeError), s.live →
    s.pending = { transaction := t, issue := .alone } :: rest → decode s.config t = .error e →
    step s = .next { s with pending := rest, fault := some (.reservedCommand t.cmd) })

/-- R70: the match and mask of each row of the command table, and a code matching no row is Reserved. -/
def Obligations.CodeTableMatchesAndMasks : Prop :=
  ∀ (cfg : Config) (t : Transaction),
    (t.cmd &&& 0xFF = 0x00 ↔ decode cfg t = .ok .next) ∧
    (t.cmd &&& 0xFB = 0x01 ↔ decode cfg t = .ok (.seed (t.cmd.getLsbD 2) t.operand)) ∧
    (t.cmd &&& 0xFF = 0x02 ∧ cfg.exposeGenerate = true ↔ decode cfg t = .ok .gen) ∧
    (¬t.cmd &&& 0xFF = 0x00 ∧ ¬t.cmd &&& 0xFB = 0x01 ∧ ¬(t.cmd &&& 0xFF = 0x02 ∧ cfg.exposeGenerate = true) ↔
      decode cfg t = .error (.reserved t.cmd))

/-- R61: sample codes written out bit by bit decode to the commands they stand for (a sanity statement). -/
def Obligations.SampleCodesDecode : Prop :=
  decode { exposeGenerate := true, wordByteOrder := .big } { cmd := 0b00000000, operand := zeroWords } = .ok .next ∧
  decode { exposeGenerate := true, wordByteOrder := .big } { cmd := 0b00000001, operand := zeroWords } =
    .ok (.seed false zeroWords) ∧
  decode { exposeGenerate := true, wordByteOrder := .big } { cmd := 0b00000101, operand := zeroWords } =
    .ok (.seed true zeroWords) ∧
  decode { exposeGenerate := true, wordByteOrder := .big } { cmd := 0b00000010, operand := zeroWords } = .ok .gen ∧
  decode { exposeGenerate := false, wordByteOrder := .big } { cmd := 0b00000010, operand := zeroWords } =
    .error (.reserved 0b00000010) ∧
  decode { exposeGenerate := true, wordByteOrder := .big } { cmd := 0b00000110, operand := zeroWords } =
    .error (.reserved 0b00000110)

/-- R67, D13: for every well-formed command, both byte orders and every operand vector, decoding the command's bytes,
followed by any bytes, gives the command back and leaves the bytes after it. -/
def Obligations.DecodeEncodeBytes : Prop :=
  ∀ (cfg : Config) (i : Instr) (rest : List Byte), i.wellFormed cfg = true →
    decodeBytes cfg (encodeBytes cfg i ++ rest) = .ok (i, rest)

/-- R61, R67: a byte string that decodes to a command is the encoding of that command, followed by the rest; no bit of
it is dropped and no second encoding exists. -/
def Obligations.DecodedBytesAreTheEncoding : Prop :=
  ∀ (cfg : Config) (bytes rest : List Byte) (i : Instr), decodeBytes cfg bytes = .ok (i, rest) →
    i.wellFormed cfg = true ∧ bytes = encodeBytes cfg i ++ rest

/-- R47, R67: a well-formed program sent as bytes, in the instance's byte order, arrives as the program's commands in
order. -/
def Obligations.BytesDeliverTheProgram : Prop :=
  ∀ (s : State) (program : List Instr), (∀ i ∈ program, i.wellFormed s.config = true) →
    receiveBytes (program.flatMap (encodeBytes s.config)) s = .ok (issueCommands program s)

/-- R66, D13: a word's eight bytes, in either order, give the word back; the two orders are each other's reverse. -/
def Obligations.WordBytesRoundTrip : Prop :=
  ∀ w : Word,
    (∀ order, (bytesOfWord order w).length = 8 ∧ wordOfBytes order (bytesOfWord order w) = w) ∧
    bytesOfWord .big w = (bytesOfWord .little w).reverse

/-! ### Taking a command -/

/-- R48, R52, R62, with the model's own list of pending requests (entry 4): a live instance whose oldest request was issued alone and decodes to a command takes the request and
runs that command, and nothing else. -/
def Obligations.StepRunsTheDecodedCommand : Prop :=
  ∀ (s : State) (t : Transaction) (rest : List Request) (i : Instr), s.live →
    s.pending = { transaction := t, issue := .alone } :: rest → decode s.config t = .ok i →
    step s = exec i { s with pending := rest }

/-- The model's own `withFetchWord` (entries 4 and 12): the very next step runs the table word's command on the state as it was. -/
def Obligations.FetchWordRunsNext : Prop :=
  ∀ (s : State) (nbits w : Nat) (i : Instr), s.live → decode s.config (tableTransaction nbits w) = .ok i →
    step (s.withFetchWord nbits w) = exec i s

/-- R182: a live instance with no request pending holds its state. -/
def Obligations.IdleBlockHoldsItsState : Prop :=
  ∀ s : State, s.live → s.pending = [] → step s = .next s

/-! ### Faults -/

/-- R171, R173: for a live instance taking a request, each fault kind is recorded exactly when its cause holds, the
causes checked in the order Race, ReservedCommand, Unseeded, IllFormedState, with the recorded information. That the
faulting step answers a next state is the model's reading (entry 6), and that a request says how it was issued (entry 7). -/
def Obligations.FaultKindsCausesAndPriority : Prop :=
  ∀ (s : State) (r : Request) (rest : List Request), s.live → s.pending = r :: rest →
    (∀ c, (∃ t, step s = .next t ∧ t.fault = some (.race c)) ↔ r.issue ≠ .alone ∧ c = r.transaction.cmd) ∧
    (∀ c, (∃ t, step s = .next t ∧ t.fault = some (.reservedCommand c)) ↔
      r.issue = .alone ∧ (∃ e, decode s.config r.transaction = .error e) ∧ c = r.transaction.cmd) ∧
    (∀ c, (∃ t, step s = .next t ∧ t.fault = some (.unseeded c)) ↔
      r.issue = .alone ∧
        (decode s.config r.transaction = .ok .next ∨ decode s.config r.transaction = .ok .gen) ∧
        s.seeded = false ∧ c = r.transaction.cmd) ∧
    (∀ c, (∃ t, step s = .next t ∧ t.fault = some (.illFormedState c)) ↔
      r.issue = .alone ∧ decode s.config r.transaction = .ok .next ∧ s.seeded = true ∧ 256 < s.cursor.toNat ∧
        c = s.cursor)

/-- R172: a faulting command changes nothing but `fault`; a faulted instance has no step, for no command, SEED included;
a reset starts a launch with no fault. The model's own: the faulting step answers a next state (entry 6), and its
request is taken (entry 16). -/
def Obligations.FaultIsTheOnlyEffectAndSticky : Prop :=
  (∀ (s t : State) (kind : FaultKind), s.live → step s = .next t → t.fault = some kind →
    t = { s with pending := s.pending.tail, fault := some kind }) ∧
  (∀ (s : State) (kind : FaultKind), s.fault = some kind →
    step s = .fault (.stuck kind) ∧ (∀ i, exec i s = .fault (.stuck kind)) ∧
      ∀ k, runSteps (k + 1) s = .fault (.stuck kind)) ∧
  (∀ (cfg : Config) (draw : ResetContents), (State.launch cfg draw).fault = none)

/-! ### NEXT -/

/-- R151: NEXTWORD(), every path: unseeded, ill-formed cursor, refill at 0, plain service. -/
def Obligations.NextServesOneWord : Prop :=
  ∀ s : State, s.live →
    (s.seeded = false → exec .next s = .next { s with fault := some (.unseeded 0x00) }) ∧
    (s.seeded = true → 256 < s.cursor.toNat →
      exec .next s = .next { s with fault := some (.illFormedState s.cursor) }) ∧
    (s.seeded = true → s.cursor = 0 → ∃ b, IsBlock s b ∧
      exec .next s = .next { b with cursor := 255, output := s.output ++ [readWord b.results 255] }) ∧
    (∀ c : Index, s.seeded = true → s.cursor.toNat = c.val + 1 →
      exec .next s = .next { s with cursor := BitVec.ofNat 9 c.val, output := s.output ++ [readWord s.results c] })

/-- R153: a NEXT regenerates exactly when it finds cursor = 0; one that finds cursor = 1 returns results[0] and leaves
cursor = 0 without regenerating; the regenerating one returns the new results[255] and leaves cursor = 255. -/
def Obligations.NextRegeneratesExactlyAtZero : Prop :=
  ∀ s : State, s.live → s.seeded = true → s.cursor.toNat ≤ 256 →
    ∃ t, exec .next s = .next t ∧
      (s.cursor = 0 → t.accC = s.accC + 1 ∧ t.cursor = 255 ∧ t.output = s.output ++ [readWord t.results 255] ∧
        IsBlock s { t with cursor := s.cursor, output := s.output }) ∧
      (s.cursor ≠ 0 → t.memory = s.memory ∧ t.results = s.results ∧ t.accA = s.accA ∧ t.accB = s.accB ∧
        t.accC = s.accC) ∧
      (s.cursor = 1 → t.cursor = 0 ∧ t.output = s.output ++ [readWord s.results 0])

/-- R155: where none of the model faults of R151 holds, NEXT completes, in one transition and with one word. -/
def Obligations.NextAlwaysCompletes : Prop :=
  ∀ s : State, s.live → s.seeded = true → s.cursor.toNat ≤ 256 →
    ∃ (t : State) (v : Word), exec .next s = .next t ∧ t.live ∧ t.output = s.output ++ [v]

/-- R152: from any seeded state, k NEXT commands within the unconsumed words return results[cursor - 1] down to
results[cursor - k], and change nothing else but the cursor. -/
def Obligations.OutputOrderIsDescending : Prop :=
  ∀ (s : State) (k : Nat) (rest : List Request), s.live → s.seeded = true → s.cursor.toNat ≤ 256 →
    k ≤ s.cursor.toNat → s.pending = List.replicate k (requestAlone (encode .next)) ++ rest →
    runSteps k s = .next
      { s with
        cursor := BitVec.ofNat 9 (s.cursor.toNat - k)
        pending := rest
        output := s.output ++
          (List.range k).map fun j => readWord s.results (Fin.ofNat 256 (s.cursor.toNat - 1 - j)) }

/-- R156: after a SEED, k NEXT commands return, word for word, results_q[255 - (j mod 256)] with q - 1 = floor(j / 256)
BLOCK runs beyond SEED's, and the k-th of them (k >= 1) leaves acc_c = 1 + floor((k - 1) / 256). -/
def Obligations.BlockBoundary : Prop :=
  ∀ (s t0 : State) (useSeed : Bool) (material : Words) (k : Nat),
    exec (.seed useSeed material) s = .next t0 → t0.pending = List.replicate k (requestAlone (encode .next)) →
    ∃ t, runSteps k t0 = .next t ∧ t.live ∧ t.pending = [] ∧
      t.output = t0.output ++
        ((List.range k).map fun j => readWord (block^[j / 256] t0).results (Fin.ofNat 256 (255 - j % 256))) ∧
      (1 ≤ k → t.accC = 1 + BitVec.ofNat 64 ((k - 1) / 256) ∧ t.cursor.toNat = 255 - (k - 1) % 256) ∧
      (k ≤ 256 → SameGenerator { t with cursor := t0.cursor } t0)

/-! ### The Block Generator and GEN -/

/-- R120, R128: GEN, every path: it runs the Block Generator and leaves the cursor, or records ReservedCommand when it
is not exposed, or Unseeded. -/
def Obligations.GenRunsOneBlock : Prop :=
  ∀ s : State, s.live →
    (s.config.exposeGenerate = true → s.seeded = true → ∃ t, exec .gen s = .next t ∧ IsBlock s t ∧
      t.cursor = s.cursor ∧ t.output = s.output) ∧
    (s.config.exposeGenerate = true → s.seeded = false →
      exec .gen s = .next { s with fault := some (.unseeded 0x02) }) ∧
    (s.config.exposeGenerate = false → exec .gen s = .next { s with fault := some (.reservedCommand 0x02) })

/-- R125 to R127: BLOCK() is the chain of 256 steps of R126 between the prologue and the epilogue, for every state. -/
def Obligations.BlockIsTheChainOfSteps : Prop :=
  ∀ s : State, IsBlock s (block s)

/-- R127: every word of memory and of results is written exactly once, at its own step: before that step it is what it
was before the block, after it what the step wrote. -/
def Obligations.BlockWritesEachWordOnce : Prop :=
  ∀ (w : BlockWork) (i : Index) (n : Nat), n ≤ 256 →
    (n ≤ i.val → readWord (blockSteps n w).memory i = readWord w.memory i ∧
      readWord (blockSteps n w).results i = readWord w.results i) ∧
    (i.val < n → readWord (blockSteps n w).memory i = readWord (blockSteps (i.val + 1) w).memory i ∧
      readWord (blockSteps n w).results i = (blockSteps (i.val + 1) w).b)

/-- R45, R132: m2 is 128 positions ahead of m, circularly; steps 0..127 read there a word not yet rewritten, steps
128..255 the word STEP(i - 128) wrote in the same block. -/
def Obligations.SecondCursorReads : Prop :=
  ∀ (w : BlockWork) (i : Index),
    (i.val < 128 → (ahead i).val = i.val + 128 ∧
      readWord (blockSteps i.val w).memory (ahead i) = readWord w.memory (ahead i)) ∧
    (128 ≤ i.val → (ahead i).val = i.val - 128 ∧
      readWord (blockSteps i.val w).memory (ahead i) = readWord (blockSteps (i.val - 128 + 1) w).memory (ahead i))

/-- R130, R131: the second indirection of a step reads after the step's write, so at its own index it reads y; the
first reads before it, so at its own index it reads x; at an index below m it reads the word this block's step of that
index wrote, above m the word the block has not yet rewritten. -/
def Obligations.IndirectionsInsideAStep : Prop :=
  ∀ (w0 : BlockWork) (m : Index),
    let w := blockSteps m.val w0
    let x := readWord w.memory m
    let a := (blockStep m w).a
    let y := readWord (blockStep m w).memory m
    y = readWord w.memory (Fin.ofNat 256 (x.toNat / 8)) + a + w.b ∧
    (x.toNat / 8 % 256 = m.val → y = x + a + w.b) ∧
    (∀ j : Index, x.toNat / 8 % 256 = j.val → j.val < m.val →
      y = readWord (blockSteps (j.val + 1) w0).memory j + a + w.b) ∧
    (∀ j : Index, x.toNat / 8 % 256 = j.val → m.val < j.val → y = readWord w0.memory j + a + w.b) ∧
    (blockStep m w).b = readWord (blockStep m w).memory (Fin.ofNat 256 (y.toNat / 2048)) + x ∧
    (y.toNat / 2048 % 256 = m.val → (blockStep m w).b = y + x)

/-- R129: after BLOCK(), acc_b = results[255], for every state; and that is the first word the next NEXT returns once
its caller has set cursor = 256. -/
def Obligations.BlockLeavesAccBInLastResult : Prop :=
  ∀ s : State,
    (block s).accB = readWord (block s).results 255 ∧
    (s.live → s.seeded = true →
      ∃ t, exec .next { block s with cursor := 256 } = .next t ∧ t.output = s.output ++ [(block s).accB])

/-- R125, R133: acc_c counts one block mod 2^64, and at 0xFFFFFFFFFFFFFFFF wraps to 0, when the prologue's b is
acc_b. -/
def Obligations.AccCCountsBlocksAndWraps : Prop :=
  ∀ s : State,
    (block s).accC.toNat = (s.accC.toNat + 1) % 2 ^ 64 ∧
    (blockPrologue s).a = s.accA ∧
    (blockPrologue s).b.toNat = (s.accB.toNat + (block s).accC.toNat) % 2 ^ 64 ∧
    (s.accC = 0xFFFFFFFFFFFFFFFF → (block s).accC = 0 ∧ (blockPrologue s).b = s.accB)

/-- R121 to R124, with the shifts of R10 bit by bit, and the corner cases those rules give. -/
def Obligations.FlavourBits : Prop :=
  (∀ (a : Word) (i : Nat), i < 64 →
    (flavour 0 a).getLsbD i = !(a.getLsbD i ^^ (decide (21 ≤ i) && a.getLsbD (i - 21))) ∧
    (flavour 1 a).getLsbD i = (a.getLsbD i ^^ a.getLsbD (i + 5)) ∧
    (flavour 2 a).getLsbD i = (a.getLsbD i ^^ (decide (12 ≤ i) && a.getLsbD (i - 12))) ∧
    (flavour 3 a).getLsbD i = (a.getLsbD i ^^ a.getLsbD (i + 33))) ∧
  flavour 0 0 = 0xFFFFFFFFFFFFFFFF ∧ flavour 0 0xFFFFFFFFFFFFFFFF = 0xFFFFFFFFFFE00000 ∧
  flavour 1 0xFFFFFFFFFFFFFFFF = 0xF800000000000000 ∧ flavour 2 0xFFFFFFFFFFFFFFFF = 0x0000000000000FFF ∧
  flavour 3 0xFFFFFFFFFFFFFFFF = 0xFFFFFFFF80000000

/-- R43, R44: INDEX(v) is the word of memory at v[10:3], INDEX(y >> 8) the one at y[18:11]; no other bit matters. -/
def Obligations.IndexSelectsBits : Prop :=
  (∀ (memory : Words) (v : Word), index memory v = readWord memory (Fin.ofNat 256 (v.toNat / 8))) ∧
  (∀ v : Word, (indexOf v).val = (v.extractLsb' 3 8).toNat) ∧
  (∀ y : Word, (indexOf (y >>> 8)).val = (y.extractLsb' 11 8).toNat) ∧
  (∀ v v' : Word, (∀ i, 3 ≤ i → i ≤ 10 → v.getLsbD i = v'.getLsbD i) → indexOf v = indexOf v') ∧
  indexOf (0x80 >>> 8) = 0 ∧ indexOf (0x800 >>> 8) = 1 ∧ indexOf (0x7FF800 >>> 8) = 255 ∧ indexOf (0x80000 >>> 8) = 0

/-! ### MIX -/

/-- R83: MIX is the eight rounds of the pattern, on the word sequence (a, ..., h) with indices mod 8. -/
def Obligations.MixFollowsTheRoundPattern : Prop :=
  ∀ w : Mixer, mixerWord (mix w) = (List.finRange 8).foldl patternRound (mixerWord w)

/-- R84: the all-zero input is a fixed point. -/
def Obligations.MixFixesZero : Prop :=
  mix { a := 0, b := 0, c := 0, d := 0, e := 0, f := 0, g := 0, h := 0 } =
    { a := 0, b := 0, c := 0, d := 0, e := 0, f := 0, g := 0, h := 0 }

/-- R86: MIX is a bijection on 8-tuples of words. -/
def Obligations.MixIsABijection : Prop := Function.Bijective mix

/-! ### SEED -/

/-- R101 to R108: on a live instance SEED answers the state that the relation of its seven steps gives, with acc_c = 1.
The relation names each group's seed words and slots, and no word of the memory before. -/
def Obligations.SeedIsTheSeedExpansion : Prop :=
  ∀ (s : State) (useSeed : Bool) (material : Words), s.live →
    ∃ t, exec (.seed useSeed material) s = .next t ∧ IsSeedExpansion useSeed material s t ∧ t.accC = 1

/-- R112: every operand is accepted: on a live instance SEED completes with no fault, the state complete and
well-formed, seeded, cursor = 256 and acc_b = results[255]. -/
def Obligations.SeedAlwaysCompletes : Prop :=
  ∀ (s : State) (useSeed : Bool) (material : Words), s.live →
    ∃ t, exec (.seed useSeed material) s = .next t ∧ t.live ∧ t.seeded = true ∧ t.cursor = 256 ∧ t.accC = 1 ∧
      t.accB = readWord t.results 255 ∧ t.output = s.output

/-- R110: the state after SEED is a function of (S, U) alone, whatever the prior state; a second SEED with the same
operands leaves it unchanged; only a faulted instance has no step. -/
def Obligations.SeedForgetsThePriorState : Prop :=
  (∀ (s1 s2 : State) (useSeed : Bool) (material : Words), s1.live → s2.live →
    ∃ t1 t2, exec (.seed useSeed material) s1 = .next t1 ∧ exec (.seed useSeed material) s2 = .next t2 ∧
      SameGenerator t1 t2) ∧
  (∀ (s t : State) (useSeed : Bool) (material : Words), exec (.seed useSeed material) s = .next t →
    exec (.seed useSeed material) t = .next t) ∧
  (∀ (s : State) (kind : FaultKind) (useSeed : Bool) (material : Words), s.fault = some kind →
    exec (.seed useSeed material) s = .fault (.stuck kind))

/-- R109: with U = 0, SEED gives the same state for every S. -/
def Obligations.FixedSeedIgnoresMaterial : Prop :=
  ∀ (s : State) (material material' : Words), exec (.seed false material) s = exec (.seed false material') s

/-- R111: with all-zero S, every group of pass 1 with U = 1 equals that of pass 1 with U = 0 (for any S there). -/
def Obligations.ZeroMaterialPassOne : Prop :=
  ∀ (material : Words) (n : Nat) (w : SeedWork), pass1 true zeroWords n w = pass1 false material n w

/-- R104: group g of pass 2 reads the group as the memory was before pass 2, and once rewritten the group stays. -/
def Obligations.PassTwoReadsPassOne : Prop :=
  ∀ (w : SeedWork) (g : Fin 32) (j : Fin 8) (n : Nat), n ≤ 32 →
    (n ≤ g.val → readWord (pass2 n w).memory (groupIndex g j) = readWord w.memory (groupIndex g j)) ∧
    (g.val < n → readWord (pass2 n w).memory (groupIndex g j) = mixerWord (pass2 (g.val + 1) w).words j)

/-! ### Frames -/

/-- R30, R66: what SEED and GEN leave: no response word, no configuration, no pending request; GEN also the cursor and
`seeded`; and a GEN that faults leaves everything but `fault`, a SEED leaves `fault`. -/
def Obligations.SeedAndGenFrame : Prop :=
  (∀ (s t : State) (useSeed : Bool) (material : Words), exec (.seed useSeed material) s = .next t →
    t.output = s.output ∧ t.config = s.config ∧ t.pending = s.pending ∧ t.fault = s.fault) ∧
  (∀ s t : State, exec .gen s = .next t →
    t.output = s.output ∧ t.config = s.config ∧ t.pending = s.pending ∧ t.cursor = s.cursor ∧ t.seeded = s.seeded ∧
      (t.fault = none ∨ (SameGenerator t s ∧ s.fault = none)))

/-- R30: what NEXT leaves: configuration, pending requests and `seeded` always; the arrays and accumulators, every word
of them, unless it finds cursor = 0 in a seeded state; all but `fault` when it faults. -/
def Obligations.NextFrame : Prop :=
  ∀ s t : State, exec .next s = .next t →
    t.config = s.config ∧ t.pending = s.pending ∧ t.seeded = s.seeded ∧
    (s.cursor ≠ 0 ∨ s.seeded = false →
      t.accA = s.accA ∧ t.accB = s.accB ∧ t.accC = s.accC ∧
        ∀ i : Index, readWord t.memory i = readWord s.memory i ∧ readWord t.results i = readWord s.results i) ∧
    (t.fault = none ∨ (SameGenerator t s ∧ t.output = s.output))

/-- R11, R42: a read at the index written gives the word written, whole; every other word reads as before. -/
def Obligations.ReadAfterWrite : Prop :=
  ∀ (v : Words) (i j : Index) (x : Word),
    readWord (writeWord v i x) i = x ∧ (i ≠ j → readWord (writeWord v i x) j = readWord v j)

/-! ### Invariants and configuration -/

/-- R31: the invariant holds after every reset whose drawn cursor is within 0..256, and at State.reset, whose draw is
the model's own (entry 1). -/
def Obligations.ResetMeetsInv : Prop :=
  (∀ (cfg : Config) (draw : ResetContents), draw.wellFormed = true → (State.launch cfg draw).Inv) ∧ State.reset.Inv

/-- R31, R129: every step keeps the invariant, from every state that meets it: the cursor stays in 0..256, and acc_b
stays equal to results[255] once seeded. -/
def Obligations.StepKeepsInv : Prop :=
  ∀ s t : State, s.Inv → step s = .next t → t.Inv

/-- R192: no step changes EXPOSE_GENERATE or WORD_BYTE_ORDER. -/
def Obligations.ConfigNeverChanges : Prop :=
  ∀ (k : Nat) (s t : State), runSteps k s = .next t → t.config = s.config

/-- R47: WORD_BYTE_ORDER changes no value in the core: a run under another byte order is the same run. -/
def Obligations.ByteOrderChangesNothing : Prop :=
  ∀ (k : Nat) (s : State) (order : ByteOrder),
    runSteps k (s.withByteOrder order) = mapNext (State.withByteOrder order) (runSteps k s)

/-! ### Reset -/

/-- R190: after reset `seeded` = 0, `fault` = none, and every other element is as drawn, for every configuration and
every draw. -/
def Obligations.LaunchState : Prop :=
  ∀ (cfg : Config) (memory results : Words) (accA accB accC : Word) (cursor : BitVec 9), cursor.toNat ≤ 256 →
    ∃ draw : ResetContents, draw.wellFormed = true ∧
      (State.launch cfg draw).seeded = false ∧ (State.launch cfg draw).fault = none ∧
      (State.launch cfg draw).memory = memory ∧ (State.launch cfg draw).results = results ∧
      (State.launch cfg draw).accA = accA ∧ (State.launch cfg draw).accB = accB ∧
      (State.launch cfg draw).accC = accC ∧ (State.launch cfg draw).cursor = cursor

/-- R32: the state after reset, and the unspecified values are unobservable: for any two draws and any requests, run for any number of steps, the
two launches give the same outputs, faults and stops, and after a SEED the same state. -/
def Obligations.ResetContentsAreUnobservable : Prop :=
  ∀ (cfg : Config) (draw1 draw2 : ResetContents) (requests : List Request) (k : Nat),
    ((State.launch cfg draw1).seeded = false ∧ (State.launch cfg draw1).fault = none ∧
      (State.launch cfg draw1).memory = draw1.memory ∧ (State.launch cfg draw1).results = draw1.results ∧
      (State.launch cfg draw1).accA = draw1.accA ∧ (State.launch cfg draw1).accB = draw1.accB ∧
      (State.launch cfg draw1).accC = draw1.accC ∧ (State.launch cfg draw1).cursor = draw1.cursor) ∧
    SameButResetContents (runSteps k { State.launch cfg draw1 with pending := requests })
      (runSteps k { State.launch cfg draw2 with pending := requests })

/-- R191: before a SEED, NEXT and an exposed GEN fault with Unseeded; a SEED completes and needs nothing else
initialised. -/
def Obligations.BootNeedsASeed : Prop :=
  ∀ s : State, s.live → s.seeded = false →
    exec .next s = .next { s with fault := some (.unseeded 0x00) } ∧
    (s.config.exposeGenerate = true → exec .gen s = .next { s with fault := some (.unseeded 0x02) }) ∧
    ∀ (useSeed : Bool) (material : Words), ∃ t, exec (.seed useSeed material) s = .next t ∧ t.live ∧ t.seeded = true

/-! ### Runs -/

/-- R200, with R172: a run of k requests ends after k transitions, is never refused, and is stopped early only by a
fault an earlier step recorded. The model's own: the requests stand in the list `pending` (entry 4), a request whose
command faults is taken from it like any other (entry 16), so `pending.drop k` holds also where the last step faulted,
and the faulting step answers a next state, the stop coming at a later step (entry 6). -/
def Obligations.RunsTerminate : Prop :=
  (∀ (k : Nat) (s : State) (r : Refusal), runSteps k s ≠ .refused r) ∧
  (∀ (k : Nat) (s t : State), runSteps k s = .next t → t.pending = s.pending.drop k) ∧
  (∀ (k : Nat) (s : State) (r : Fault), runSteps k s = .fault r →
    ∃ j < k, ∃ (t : State) (kind : FaultKind), runSteps j s = .next t ∧ t.fault = some kind ∧ r = .stuck kind)

/-- R172: a run that completes (no fault recorded at its end, no request left) recorded no fault at any step of it. -/
def Obligations.CompletedRunNeverFaulted : Prop :=
  ∀ (k : Nat) (s t : State), Completes k s t → ∀ j ≤ k, ∃ u, runSteps j s = .next u ∧ u.live

/-- R157: once a SEED has run, the output stream from there on, the faults and the final state of a program are
functions of the program and the SEED operands alone: two live instances with the same configuration and the same
requests, the first a SEED, continue word for word alike, whatever their states were. -/
def Obligations.OutputDeterminedBySeed : Prop :=
  ∀ (s1 s2 : State) (t : Transaction) (rest : List Request) (useSeed : Bool) (material : Words) (k : Nat),
    s1.live → s2.live → s1.config = s2.config →
    s1.pending = { transaction := t, issue := .alone } :: rest → s2.pending = s1.pending →
    decode s1.config t = .ok (.seed useSeed material) →
    SameContinuation s1.output s2.output (runSteps (k + 1) s1) (runSteps (k + 1) s2)

/-! ### Instances -/

/-- R179, for instances held in a list (entry 14): a command to one instance changes that one only, and commands to two instances may be taken in either order
with the same result. -/
def Obligations.InstancesAreIndependent : Prop :=
  (∀ (k : Nat) (all all' : List State), stepInstance k all = some (.next all') →
    all'.length = all.length ∧ ∀ j, j ≠ k → all'[j]? = all[j]?) ∧
  (∀ (j k : Nat) (all allJ allK : List State), j ≠ k → stepInstance j all = some (.next allJ) →
    stepInstance k all = some (.next allK) →
    ∃ both, stepInstance k allJ = some (.next both) ∧ stepInstance j allK = some (.next both))
end

