-- ==== Sys2Proof/Laws/State.lean ====
section
/-! SUPPORT. For each named update of State, what every field holds after it: one lemma per field per update, so that no
later proof unfolds a record update. -/

namespace Sys2Proof.Machine

variable (s : State)

/-! ### raiseFault -/

@[simp] theorem raiseFault_memory (kind : FaultKind) : (raiseFault kind s).memory = s.memory := rfl
@[simp] theorem raiseFault_results (kind : FaultKind) : (raiseFault kind s).results = s.results := rfl
@[simp] theorem raiseFault_accA (kind : FaultKind) : (raiseFault kind s).accA = s.accA := rfl
@[simp] theorem raiseFault_accB (kind : FaultKind) : (raiseFault kind s).accB = s.accB := rfl
@[simp] theorem raiseFault_accC (kind : FaultKind) : (raiseFault kind s).accC = s.accC := rfl
@[simp] theorem raiseFault_cursor (kind : FaultKind) : (raiseFault kind s).cursor = s.cursor := rfl
@[simp] theorem raiseFault_seeded (kind : FaultKind) : (raiseFault kind s).seeded = s.seeded := rfl
@[simp] theorem raiseFault_fault (kind : FaultKind) : (raiseFault kind s).fault = some kind := rfl
@[simp] theorem raiseFault_config (kind : FaultKind) : (raiseFault kind s).config = s.config := rfl
@[simp] theorem raiseFault_pending (kind : FaultKind) : (raiseFault kind s).pending = s.pending := rfl
@[simp] theorem raiseFault_output (kind : FaultKind) : (raiseFault kind s).output = s.output := rfl

/-! ### respond -/

@[simp] theorem respond_memory (v : Word) : (respond v s).memory = s.memory := rfl
@[simp] theorem respond_results (v : Word) : (respond v s).results = s.results := rfl
@[simp] theorem respond_accA (v : Word) : (respond v s).accA = s.accA := rfl
@[simp] theorem respond_accB (v : Word) : (respond v s).accB = s.accB := rfl
@[simp] theorem respond_accC (v : Word) : (respond v s).accC = s.accC := rfl
@[simp] theorem respond_cursor (v : Word) : (respond v s).cursor = s.cursor := rfl
@[simp] theorem respond_seeded (v : Word) : (respond v s).seeded = s.seeded := rfl
@[simp] theorem respond_fault (v : Word) : (respond v s).fault = s.fault := rfl
@[simp] theorem respond_config (v : Word) : (respond v s).config = s.config := rfl
@[simp] theorem respond_pending (v : Word) : (respond v s).pending = s.pending := rfl
@[simp] theorem respond_output (v : Word) : (respond v s).output = s.output ++ [v] := rfl

/-! ### markSeeded -/

@[simp] theorem markSeeded_memory : (markSeeded s).memory = s.memory := rfl
@[simp] theorem markSeeded_results : (markSeeded s).results = s.results := rfl
@[simp] theorem markSeeded_accA : (markSeeded s).accA = s.accA := rfl
@[simp] theorem markSeeded_accB : (markSeeded s).accB = s.accB := rfl
@[simp] theorem markSeeded_accC : (markSeeded s).accC = s.accC := rfl
@[simp] theorem markSeeded_cursor : (markSeeded s).cursor = s.cursor := rfl
@[simp] theorem markSeeded_seeded : (markSeeded s).seeded = true := rfl
@[simp] theorem markSeeded_fault : (markSeeded s).fault = s.fault := rfl
@[simp] theorem markSeeded_config : (markSeeded s).config = s.config := rfl
@[simp] theorem markSeeded_pending : (markSeeded s).pending = s.pending := rfl
@[simp] theorem markSeeded_output : (markSeeded s).output = s.output := rfl

/-! ### block -/

@[simp] theorem block_memory : (block s).memory = (blockRun (blockPrologue s)).memory := rfl
@[simp] theorem block_results : (block s).results = (blockRun (blockPrologue s)).results := rfl
@[simp] theorem block_accA : (block s).accA = (blockRun (blockPrologue s)).a := rfl
@[simp] theorem block_accB : (block s).accB = (blockRun (blockPrologue s)).b := rfl
@[simp] theorem block_accC : (block s).accC = s.accC + 1 := rfl
@[simp] theorem block_cursor : (block s).cursor = s.cursor := rfl
@[simp] theorem block_seeded : (block s).seeded = s.seeded := rfl
@[simp] theorem block_fault : (block s).fault = s.fault := rfl
@[simp] theorem block_config : (block s).config = s.config := rfl
@[simp] theorem block_pending : (block s).pending = s.pending := rfl
@[simp] theorem block_output : (block s).output = s.output := rfl

/-! ### serve -/

@[simp] theorem serve_memory : (serve s).memory = s.memory := rfl
@[simp] theorem serve_results : (serve s).results = s.results := rfl
@[simp] theorem serve_accA : (serve s).accA = s.accA := rfl
@[simp] theorem serve_accB : (serve s).accB = s.accB := rfl
@[simp] theorem serve_accC : (serve s).accC = s.accC := rfl
@[simp] theorem serve_cursor : (serve s).cursor = s.cursor - 1 := rfl
@[simp] theorem serve_seeded : (serve s).seeded = s.seeded := rfl
@[simp] theorem serve_fault : (serve s).fault = s.fault := rfl
@[simp] theorem serve_config : (serve s).config = s.config := rfl
@[simp] theorem serve_pending : (serve s).pending = s.pending := rfl
@[simp] theorem serve_output : (serve s).output = s.output ++ [readWord s.results (cursorIndex (s.cursor - 1))] := rfl

/-! ### placeFirst -/

@[simp] theorem placeFirst_memory (t : Transaction) : (placeFirst t s).memory = s.memory := rfl
@[simp] theorem placeFirst_results (t : Transaction) : (placeFirst t s).results = s.results := rfl
@[simp] theorem placeFirst_accA (t : Transaction) : (placeFirst t s).accA = s.accA := rfl
@[simp] theorem placeFirst_accB (t : Transaction) : (placeFirst t s).accB = s.accB := rfl
@[simp] theorem placeFirst_accC (t : Transaction) : (placeFirst t s).accC = s.accC := rfl
@[simp] theorem placeFirst_cursor (t : Transaction) : (placeFirst t s).cursor = s.cursor := rfl
@[simp] theorem placeFirst_seeded (t : Transaction) : (placeFirst t s).seeded = s.seeded := rfl
@[simp] theorem placeFirst_fault (t : Transaction) : (placeFirst t s).fault = s.fault := rfl
@[simp] theorem placeFirst_config (t : Transaction) : (placeFirst t s).config = s.config := rfl
@[simp] theorem placeFirst_pending (t : Transaction) : (placeFirst t s).pending = requestAlone t :: s.pending := rfl
@[simp] theorem placeFirst_output (t : Transaction) : (placeFirst t s).output = s.output := rfl

/-! ### issueCommands -/

@[simp] theorem issueCommands_memory (program : List Instr) : (issueCommands program s).memory = s.memory := rfl
@[simp] theorem issueCommands_results (program : List Instr) : (issueCommands program s).results = s.results := rfl
@[simp] theorem issueCommands_accA (program : List Instr) : (issueCommands program s).accA = s.accA := rfl
@[simp] theorem issueCommands_accB (program : List Instr) : (issueCommands program s).accB = s.accB := rfl
@[simp] theorem issueCommands_accC (program : List Instr) : (issueCommands program s).accC = s.accC := rfl
@[simp] theorem issueCommands_cursor (program : List Instr) : (issueCommands program s).cursor = s.cursor := rfl
@[simp] theorem issueCommands_seeded (program : List Instr) : (issueCommands program s).seeded = s.seeded := rfl
@[simp] theorem issueCommands_fault (program : List Instr) : (issueCommands program s).fault = s.fault := rfl
@[simp] theorem issueCommands_config (program : List Instr) : (issueCommands program s).config = s.config := rfl
@[simp] theorem issueCommands_pending (program : List Instr) : (issueCommands program s).pending = s.pending ++ program.map fun i => requestAlone (encode i) := rfl
@[simp] theorem issueCommands_output (program : List Instr) : (issueCommands program s).output = s.output := rfl

/-! ### seedExpand -/

@[simp] theorem seedExpand_memory (useSeed : Bool) (material : Words) : (seedExpand useSeed material s).memory = (block { s with memory := expandMemory useSeed material s.memory, accA := 0, accB := 0, accC := 0 }).memory := rfl
@[simp] theorem seedExpand_results (useSeed : Bool) (material : Words) : (seedExpand useSeed material s).results = (block { s with memory := expandMemory useSeed material s.memory, accA := 0, accB := 0, accC := 0 }).results := rfl
@[simp] theorem seedExpand_accA (useSeed : Bool) (material : Words) : (seedExpand useSeed material s).accA = (block { s with memory := expandMemory useSeed material s.memory, accA := 0, accB := 0, accC := 0 }).accA := rfl
@[simp] theorem seedExpand_accB (useSeed : Bool) (material : Words) : (seedExpand useSeed material s).accB = (block { s with memory := expandMemory useSeed material s.memory, accA := 0, accB := 0, accC := 0 }).accB := rfl
@[simp] theorem seedExpand_accC (useSeed : Bool) (material : Words) : (seedExpand useSeed material s).accC = 1 := rfl
@[simp] theorem seedExpand_cursor (useSeed : Bool) (material : Words) : (seedExpand useSeed material s).cursor = 256 := rfl
@[simp] theorem seedExpand_seeded (useSeed : Bool) (material : Words) : (seedExpand useSeed material s).seeded = true := rfl
@[simp] theorem seedExpand_fault (useSeed : Bool) (material : Words) : (seedExpand useSeed material s).fault = s.fault := rfl
@[simp] theorem seedExpand_config (useSeed : Bool) (material : Words) : (seedExpand useSeed material s).config = s.config := rfl
@[simp] theorem seedExpand_pending (useSeed : Bool) (material : Words) : (seedExpand useSeed material s).pending = s.pending := rfl
@[simp] theorem seedExpand_output (useSeed : Bool) (material : Words) : (seedExpand useSeed material s).output = s.output := rfl

/-! ### launch -/

variable (cfg : Config) (draw : ResetContents)

@[simp] theorem launch_memory : (State.launch cfg draw).memory = draw.memory := rfl
@[simp] theorem launch_results : (State.launch cfg draw).results = draw.results := rfl
@[simp] theorem launch_accA : (State.launch cfg draw).accA = draw.accA := rfl
@[simp] theorem launch_accB : (State.launch cfg draw).accB = draw.accB := rfl
@[simp] theorem launch_accC : (State.launch cfg draw).accC = draw.accC := rfl
@[simp] theorem launch_cursor : (State.launch cfg draw).cursor = draw.cursor := rfl
@[simp] theorem launch_seeded : (State.launch cfg draw).seeded = false := rfl
@[simp] theorem launch_fault : (State.launch cfg draw).fault = none := rfl
@[simp] theorem launch_config : (State.launch cfg draw).config = cfg := rfl
@[simp] theorem launch_pending : (State.launch cfg draw).pending = [] := rfl
@[simp] theorem launch_output : (State.launch cfg draw).output = [] := rfl

end Sys2Proof.Machine
end

