-- ==== Sys2Proof/Laws/Ops.lean ====
section
/-! SUPPORT. What the shared operations do: arrays, indices, and the two guards of a command. -/

namespace Sys2Proof.Machine

/-! ### Reading and writing one word -/

@[simp] theorem readWord_writeWord_same (v : Words) (i : Index) (x : Word) : readWord (writeWord v i x) i = x := by
  simp [readWord, writeWord, Vector.get_eq_getElem]

@[simp] theorem readWord_writeWord_other {i j : Index} (h : i ≠ j) (v : Words) (x : Word) :
    readWord (writeWord v i x) j = readWord v j := by
  have hv : i.val ≠ j.val := fun e => h (Fin.ext e)
  simp [readWord, writeWord, Vector.get_eq_getElem, Vector.getElem_set_ne, hv]

/-- Two arrays with the same words are the same array. -/
theorem words_ext {u v : Words} (h : ∀ i : Index, readWord u i = readWord v i) : u = v := by
  apply Vector.ext
  intro i hi
  simpa [readWord, Vector.get_eq_getElem] using h ⟨i, hi⟩

/-! ### Indices -/

theorem indexOf_val (v : Word) : (indexOf v).val = (v >>> 3).toNat % 256 := rfl

theorem ahead_val (m : Index) : (ahead m).val = (m.val + 128) % 256 := rfl

theorem groupIndex_val (g : Fin 32) (j : Fin 8) : (groupIndex g j).val = 8 * g.val + j.val := by
  simp only [groupIndex, Fin.ofNat]
  omega

/-- Every index lies in exactly one group at one place. -/
theorem groupIndex_inj {g g' : Fin 32} {j j' : Fin 8} (h : groupIndex g j = groupIndex g' j') : g = g' ∧ j = j' := by
  have hv := congrArg Fin.val h
  rw [groupIndex_val, groupIndex_val] at hv
  omega

theorem exists_groupIndex (i : Index) : ∃ g j, i = groupIndex g j := by
  refine ⟨⟨i.val / 8, by omega⟩, ⟨i.val % 8, by omega⟩, Fin.ext ?_⟩
  rw [groupIndex_val]
  show i.val = 8 * (i.val / 8) + i.val % 8
  omega

/-! ### Guards -/

theorem unlessFaulted_live {s : State} (h : s.fault = none) (effect : Outcome) : unlessFaulted s effect = effect := by
  simp [unlessFaulted, h]

theorem unlessFaulted_stuck {s : State} {kind : FaultKind} (h : s.fault = some kind) (effect : Outcome) :
    unlessFaulted s effect = .fault (.stuck kind) := by
  simp [unlessFaulted, h]

/-- A guarded command answers a next state only on a live instance, and then it is the effect's. -/
theorem unlessFaulted_eq_next {s t : State} {effect : Outcome} (h : unlessFaulted s effect = .next t) :
    s.fault = none ∧ effect = .next t := by
  unfold unlessFaulted at h
  split at h
  · cases h
  · exact ⟨‹_›, h⟩

theorem requireSeeded_seeded {s : State} (h : s.seeded = true) (cmd : Byte) (effect : Outcome) :
    requireSeeded cmd s effect = effect := by
  simp [requireSeeded, h]

theorem requireSeeded_unseeded {s : State} (h : s.seeded = false) (cmd : Byte) (effect : Outcome) :
    requireSeeded cmd s effect = .next (raiseFault (.unseeded cmd) s) := by
  simp [requireSeeded, h]

end Sys2Proof.Machine
end

