-- ==== Sys2Proof/Laws/Block.lean ====
section
/-! SUPPORT. What STEP and the 256 steps of a block do to the arrays: each step writes its own index and no other
(R126, R127). -/

namespace Sys2Proof.Machine

/-- Step number n of a block, for n below 256, has index n. -/
theorem stepIndex_val {n : Nat} (h : n < 256) : (Fin.ofNat 256 n).val = n := Nat.mod_eq_of_lt h

theorem blockRun_eq (w : BlockWork) : blockRun w = blockSteps 256 w := by
  unfold blockRun
  rfl

theorem blockSteps_succ (n : Nat) (w : BlockWork) :
    blockSteps (n + 1) w = blockStep (Fin.ofNat 256 n) (blockSteps n w) := rfl

@[simp] theorem blockStep_memory_other {i j : Index} (h : i ≠ j) (w : BlockWork) :
    readWord (blockStep i w).memory j = readWord w.memory j := readWord_writeWord_other h _ _

@[simp] theorem blockStep_results_other {i j : Index} (h : i ≠ j) (w : BlockWork) :
    readWord (blockStep i w).results j = readWord w.results j := readWord_writeWord_other h _ _

/-- The result word a step writes is the b it leaves (R126). -/
@[simp] theorem blockStep_results_same (i : Index) (w : BlockWork) :
    readWord (blockStep i w).results i = (blockStep i w).b := readWord_writeWord_same _ _ _

/-- A word of memory not yet reached is as it was before the block (R132). -/
theorem blockSteps_memory_ahead (n : Nat) (w : BlockWork) (j : Index) (h : n ≤ j.val) :
    readWord (blockSteps n w).memory j = readWord w.memory j := by
  induction n with
  | zero => rfl
  | succ n ih =>
    have hne : Fin.ofNat 256 n ≠ j := by
      intro e
      have := congrArg Fin.val e
      rw [stepIndex_val (by omega)] at this
      omega
    rw [blockSteps_succ, blockStep_memory_other hne, ih (by omega)]

/-- A word of memory already rewritten stays as its step wrote it, to the end of the block (R127). -/
theorem blockSteps_memory_behind (n : Nat) (w : BlockWork) (j : Index) (h : j.val < n) (hn : n ≤ 256) :
    readWord (blockSteps n w).memory j = readWord (blockSteps (j.val + 1) w).memory j := by
  induction n with
  | zero => omega
  | succ n ih =>
    by_cases e : n = j.val
    · rw [e]
    · have hne : Fin.ofNat 256 n ≠ j := by
        intro e'
        have := congrArg Fin.val e'
        rw [stepIndex_val (by omega)] at this
        omega
      rw [blockSteps_succ, blockStep_memory_other hne, ih (by omega) (by omega)]

/-- A result word, once written, stays to the end of the block (R127). -/
theorem blockSteps_results_behind (n : Nat) (w : BlockWork) (j : Index) (h : j.val < n) (hn : n ≤ 256) :
    readWord (blockSteps n w).results j = (blockSteps (j.val + 1) w).b := by
  induction n with
  | zero => omega
  | succ n ih =>
    by_cases e : n = j.val
    · have hj : Fin.ofNat 256 n = j := Fin.ext (by rw [stepIndex_val (by omega), e])
      rw [← e, blockSteps_succ, hj, blockStep_results_same]
    · have hne : Fin.ofNat 256 n ≠ j := by
        intro e'
        have := congrArg Fin.val e'
        rw [stepIndex_val (by omega)] at this
        omega
      rw [blockSteps_succ, blockStep_results_other hne, ih (by omega) (by omega)]

end Sys2Proof.Machine
end

