-- ==== Sys2Proof/Laws/Decode.lean ====
section
/-! SUPPORT. The fields of a code put together, and everything the decoder can answer (R61, R62). -/

namespace Sys2Proof

@[simp] theorem cmdOp_cmdOf (u : Bool) (op : BitVec 2) : cmdOp (cmdOf u op) = op := by
  revert u op; decide

@[simp] theorem cmdUseSeed_cmdOf (u : Bool) (op : BitVec 2) : cmdUseSeed (cmdOf u op) = u := by
  revert u op; decide

@[simp] theorem cmdZ_cmdOf (u : Bool) (op : BitVec 2) : cmdZ (cmdOf u op) = 0b00000#5 := by
  revert u op; decide

/-- A code is its fields (R61). -/
theorem cmd_eq_cmdOf {cmd : Byte} (h : cmdZ cmd = 0b00000#5) : cmd = cmdOf (cmdUseSeed cmd) (cmdOp cmd) := by
  revert cmd; decide

theorem decode_next {cfg : Config} {t : Transaction} (h : t.cmd = cmdNext) : decode cfg t = .ok .next := by
  simp [decode, h, cmdNext]

theorem decode_seed {cfg : Config} {t : Transaction} {u : Bool} (h : t.cmd = cmdSeed u) :
    decode cfg t = .ok (.seed u t.operand) := by
  simp [decode, h, cmdSeed]

theorem decode_gen {cfg : Config} {t : Transaction} (h : t.cmd = cmdGen) (he : cfg.exposeGenerate = true) :
    decode cfg t = .ok .gen := by
  simp [decode, h, cmdGen, he]

/-- Everything the decoder can answer with a command. -/
theorem decode_eq_ok {cfg : Config} {t : Transaction} {i : Instr} (h : decode cfg t = .ok i) :
    (t.cmd = cmdNext ∧ i = .next) ∨ (∃ u, t.cmd = cmdSeed u ∧ i = .seed u t.operand) ∨
      (t.cmd = cmdGen ∧ cfg.exposeGenerate = true ∧ i = .gen) := by
  unfold decode at h
  split at h
  · cases h
  rename_i hz
  have hcmd := cmd_eq_cmdOf (not_not.mp hz)
  split at h
  · cases h
  split at h
  · rename_i ho
    cases h
    exact .inr (.inl ⟨_, by rw [ho] at hcmd; exact hcmd, rfl⟩)
  split at h
  · cases h
  rename_i hu
  rw [Bool.not_eq_true] at hu
  split at h
  · rename_i ho
    cases h
    exact .inl ⟨by rw [ho, hu] at hcmd; exact hcmd, rfl⟩
  split at h
  · rename_i h3 h1 h0 he
    cases h
    refine .inr (.inr ⟨?_, he, rfl⟩)
    have h2 : cmdOp t.cmd = 0b10#2 := by
      generalize cmdOp t.cmd = op at h0 h1 h3
      revert op; decide
    rw [h2, hu] at hcmd
    exact hcmd
  · cases h

/-- Every error of the decoder is the Reserved code itself (R62). -/
theorem decode_eq_error {cfg : Config} {t : Transaction} {e : DecodeError} (h : decode cfg t = .error e) :
    e = .reserved t.cmd := by
  unfold decode at h
  repeat' split at h
  all_goals simp_all

end Sys2Proof
end

