-- ==== Sys2Proof/Laws/PerInstr.lean ====
section
/-! SUPPORT. Statements about every command, one lemma per constructor. -/

namespace Sys2Proof.Laws

/-- Decoding the transaction of a well-formed command gives the command (R61, R62, R70). -/
def RoundTrip.Statement (i : Instr) : Prop :=
  ∀ cfg : Config, i.wellFormed cfg = true → decode cfg (encode i) = .ok i

theorem RoundTrip.next : RoundTrip.Statement .next := fun _ _ => decode_next rfl

theorem RoundTrip.seed (useSeed : Bool) (material : Words) : RoundTrip.Statement (.seed useSeed material) :=
  fun _ _ => decode_seed rfl

theorem RoundTrip.gen : RoundTrip.Statement .gen := fun _ h => decode_gen rfl h

end Sys2Proof.Laws
end

