-- ==== Sys2Proof/Laws/Seed.lean ====
section
/-! SUPPORT. What one group of a pass of SEED writes: its own eight words and no other (R103, R104, R108). -/

namespace Sys2Proof.Machine

theorem storeGroup_other (g : Fin 32) (w : Mixer) (memory : Words) {i : Index}
    (h : ∀ j : Fin 8, groupIndex g j ≠ i) : readWord (storeGroup g w memory) i = readWord memory i := by
  simp [storeGroup, readWord_writeWord_other, h]

theorem groupIndex_ne {g g' : Fin 32} {j j' : Fin 8} (h : g ≠ g' ∨ j ≠ j') : groupIndex g j ≠ groupIndex g' j' := by
  intro e
  have := groupIndex_inj e
  tauto

/-- Slot 8g + j of the group holds working word j (R108). -/
theorem storeGroup_same (g : Fin 32) (w : Mixer) (memory : Words) (j : Fin 8) :
    readWord (storeGroup g w memory) (groupIndex g j) = mixerWord w j := by
  fin_cases j <;> simp [storeGroup, mixerWord, readWord_writeWord_other, groupIndex_ne]

theorem storeGroup_otherGroup {g g' : Fin 32} (h : g ≠ g') (w : Mixer) (memory : Words) (j : Fin 8) :
    readWord (storeGroup g w memory) (groupIndex g' j) = readWord memory (groupIndex g' j) :=
  storeGroup_other g w memory fun _ => groupIndex_ne (Or.inl h)

/-- Adding a group reads that group's eight words only. -/
theorem addGroup_congr {u v : Words} {g : Fin 32} (h : ∀ j, readWord u (groupIndex g j) = readWord v (groupIndex g j))
    (w : Mixer) : addGroup u g w = addGroup v g w := by
  simp [addGroup, h]

theorem expandMemory_useSeed (material memory : Words) :
    expandMemory true material memory =
      (pass2 32 (pass1 true material 32 { words := scrambled, memory })).memory := by
  unfold expandMemory
  rfl

theorem expandMemory_fixed (material memory : Words) :
    expandMemory false material memory = (pass1 false material 32 { words := scrambled, memory }).memory := by
  unfold expandMemory
  rfl

theorem pass1_succ (useSeed : Bool) (material : Words) (n : Nat) (w : SeedWork) :
    pass1 useSeed material (n + 1) w = pass1Group useSeed material (Fin.ofNat 32 n) (pass1 useSeed material n w) := rfl

theorem pass2_succ (n : Nat) (w : SeedWork) : pass2 (n + 1) w = pass2Group (Fin.ofNat 32 n) (pass2 n w) := rfl

end Sys2Proof.Machine
end

