-- ==== Sys2Proof/Laws/Step.lean ====
section
/-! SUPPORT. What a step can do, said once: the inversion lemmas of the three commands and of step. -/

namespace Sys2Proof.Machine

/-! ### The commands on a live instance -/

theorem exec_stuck {s : State} {kind : FaultKind} (h : s.fault = some kind) (i : Instr) :
    exec i s = .fault (.stuck kind) := by
  cases i <;> exact unlessFaulted_stuck h _

theorem execSeed_live {s : State} (h : s.fault = none) (useSeed : Bool) (material : Words) :
    execSeed useSeed material s = .next (seedExpand useSeed material s) := unlessFaulted_live h _

theorem execNext_live {s : State} (h : s.fault = none) (hs : s.seeded = true) (hc : s.cursor.toNat ≤ 256) :
    execNext s = .next (serve (refill s)) := by
  rw [execNext, unlessFaulted_live h, requireSeeded_seeded hs, if_neg (by omega)]

theorem execGen_live {s : State} (h : s.fault = none) (he : s.config.exposeGenerate = true) (hs : s.seeded = true) :
    execGen s = .next (block s) := by
  rw [execGen, unlessFaulted_live h, if_pos he, requireSeeded_seeded hs]

/-- Everything NEXT can do when it answers a next state (R151). -/
theorem execNext_cases {s t : State} (h : execNext s = .next t) :
    s.fault = none ∧
      ((s.seeded = false ∧ t = raiseFault (.unseeded cmdNext) s) ∨
        (s.seeded = true ∧ 256 < s.cursor.toNat ∧ t = raiseFault (.illFormedState s.cursor) s) ∨
        (s.seeded = true ∧ s.cursor.toNat ≤ 256 ∧ t = serve (refill s))) := by
  obtain ⟨hf, h⟩ := unlessFaulted_eq_next h
  refine ⟨hf, ?_⟩
  unfold requireSeeded at h
  split at h
  · rename_i hs
    split at h
    · exact .inr (.inl ⟨hs, ‹_›, by simpa using h.symm⟩)
    · exact .inr (.inr ⟨hs, by omega, by simpa using h.symm⟩)
  · exact .inl ⟨by simpa using ‹¬s.seeded = true›, by simpa using h.symm⟩

/-- Everything GEN can do when it answers a next state (R120). -/
theorem execGen_cases {s t : State} (h : execGen s = .next t) :
    s.fault = none ∧
      ((s.config.exposeGenerate = false ∧ t = raiseFault (.reservedCommand cmdGen) s) ∨
        (s.config.exposeGenerate = true ∧ s.seeded = false ∧ t = raiseFault (.unseeded cmdGen) s) ∨
        (s.config.exposeGenerate = true ∧ s.seeded = true ∧ t = block s)) := by
  obtain ⟨hf, h⟩ := unlessFaulted_eq_next h
  refine ⟨hf, ?_⟩
  split at h
  · rename_i he
    unfold requireSeeded at h
    split at h
    · exact .inr (.inr ⟨he, ‹_›, by simpa using h.symm⟩)
    · exact .inr (.inl ⟨he, by simpa using ‹¬s.seeded = true›, by simpa using h.symm⟩)
  · exact .inl ⟨by simpa using ‹¬s.config.exposeGenerate = true›, by simpa using h.symm⟩

/-- Everything SEED can do when it answers a next state (R100). -/
theorem execSeed_cases {s t : State} {useSeed : Bool} {material : Words} (h : execSeed useSeed material s = .next t) :
    s.fault = none ∧ t = seedExpand useSeed material s := by
  obtain ⟨hf, h⟩ := unlessFaulted_eq_next h
  exact ⟨hf, by simpa using h.symm⟩

/-! ### Step -/

theorem step_stuck {s : State} {kind : FaultKind} (h : s.fault = some kind) : step s = .fault (.stuck kind) := by
  simp [step, takeRequest, h]

theorem step_idle {s : State} (h : s.fault = none) (hp : s.pending = []) : step s = .next s := by
  simp [step, takeRequest, h, hp]

theorem step_race {s : State} {r : Request} {rest : List Request} (h : s.fault = none) (hp : s.pending = r :: rest)
    (hr : r.issue ≠ .alone) : step s = .next (raiseFault (.race r.transaction.cmd) { s with pending := rest }) := by
  simp [step, takeRequest, h, hp, Request.races, hr]

theorem step_reserved {s : State} {r : Request} {rest : List Request} {e : DecodeError} (h : s.fault = none)
    (hp : s.pending = r :: rest) (hr : r.issue = .alone) (hd : decode s.config r.transaction = .error e) :
    step s = .next (raiseFault (.reservedCommand r.transaction.cmd) { s with pending := rest }) := by
  simp [step, takeRequest, h, hp, Request.races, hr, hd]

theorem step_command {s : State} {r : Request} {rest : List Request} {i : Instr} (h : s.fault = none)
    (hp : s.pending = r :: rest) (hr : r.issue = .alone) (hd : decode s.config r.transaction = .ok i) :
    step s = exec i { s with pending := rest } := by
  simp [step, takeRequest, h, hp, Request.races, hr, hd]

/-- Everything a step can do, whatever it answers. -/
theorem step_cases (s : State) :
    (∃ kind, s.fault = some kind ∧ step s = .fault (.stuck kind)) ∨
      (s.fault = none ∧ s.pending = [] ∧ step s = .next s) ∨
      (∃ r rest, s.fault = none ∧ s.pending = r :: rest ∧ r.issue ≠ .alone ∧
        step s = .next (raiseFault (.race r.transaction.cmd) { s with pending := rest })) ∨
      (∃ r rest e, s.fault = none ∧ s.pending = r :: rest ∧ r.issue = .alone ∧
        decode s.config r.transaction = .error e ∧
        step s = .next (raiseFault (.reservedCommand r.transaction.cmd) { s with pending := rest })) ∨
      (∃ r rest i, s.fault = none ∧ s.pending = r :: rest ∧ r.issue = .alone ∧
        decode s.config r.transaction = .ok i ∧ step s = exec i { s with pending := rest }) := by
  obtain ⟨kind, hf⟩ | hf : (∃ kind, s.fault = some kind) ∨ s.fault = none := by
    cases s.fault <;> simp
  · exact .inl ⟨kind, hf, step_stuck hf⟩
  right
  obtain hp | ⟨r, rest, hp⟩ : s.pending = [] ∨ ∃ r rest, s.pending = r :: rest := by
    cases s.pending <;> simp
  · exact .inl ⟨hf, hp, step_idle hf hp⟩
  right
  by_cases hr : r.issue = .alone
  · right
    cases hd : decode s.config r.transaction with
    | error e => exact .inl ⟨r, rest, e, hf, hp, hr, hd, step_reserved hf hp hr hd⟩
    | ok i => exact .inr ⟨r, rest, i, hf, hp, hr, hd, step_command hf hp hr hd⟩
  · exact .inl ⟨r, rest, hf, hp, hr, step_race hf hp hr⟩

/-- On a live instance every command answers a next state (R155, R112, R120). -/
theorem exec_completes {s : State} (h : s.fault = none) (i : Instr) : ∃ t, exec i s = .next t := by
  cases i with
  | next =>
    simp only [exec, execNext, unlessFaulted_live h, requireSeeded]
    split
    · split <;> exact ⟨_, rfl⟩
    · exact ⟨_, rfl⟩
  | seed useSeed material => exact ⟨_, execSeed_live h useSeed material⟩
  | gen =>
    simp only [exec, execGen, unlessFaulted_live h, requireSeeded]
    split
    · split <;> exact ⟨_, rfl⟩
    · exact ⟨_, rfl⟩

/-- No step answers a refusal. -/
theorem step_not_refused (s : State) (r : Refusal) : step s ≠ .refused r := by
  obtain ⟨_, _, h⟩ | ⟨_, _, h⟩ | ⟨_, _, _, _, _, h⟩ | ⟨_, _, _, _, _, _, _, h⟩ | ⟨_, rest, i, hf, _, _, _, h⟩ := step_cases s
  · simp [h]
  · simp [h]
  · simp [h]
  · simp [h]
  · obtain ⟨t, ht⟩ := exec_completes (s := { s with pending := rest }) hf i
    simp [h, ht]

end Sys2Proof.Machine
end

