-- ==== Sys2Proof/Laws/Run.lean ====
section
/-! SUPPORT. Runs: the run of claims is the host's run, and how a run goes on after one step. -/

namespace Sys2Proof.Machine

@[simp] theorem runSteps_zero (s : State) : runSteps 0 s = .next s := rfl

theorem runSteps_succ_next {s t : State} (h : step s = .next t) (k : Nat) : runSteps (k + 1) s = runSteps k t := by
  simp [runSteps, h]

theorem runSteps_succ_fault {s : State} {r : Fault} (h : step s = .fault r) (k : Nat) :
    runSteps (k + 1) s = .fault r := by
  simp [runSteps, h]

theorem hostRun_succ_next {M : Host.Core} {s t : M.State} (h : M.step s = .next t) (k : Nat) :
    M.run (k + 1) s = M.run k t := by
  simp [Host.Core.run, h]

theorem hostRun_succ_fault {M : Host.Core} {s : M.State} {r : M.Fault} (h : M.step s = .fault r) (k : Nat) :
    M.run (k + 1) s = .fault r := by
  simp [Host.Core.run, h]

/-- The run of claims is the run of the host's interface. -/
theorem runSteps_eq_run (k : Nat) (s : State) : runSteps k s = Host.Core.run Sys2Proof.core k s := by
  induction k generalizing s with
  | zero => rfl
  | succ k ih =>
    cases h : step s with
    | next s' =>
      exact (runSteps_succ_next h k).trans ((ih s').trans (hostRun_succ_next (M := Sys2Proof.core) h k).symm)
    | fault r => exact (runSteps_succ_fault h k).trans (hostRun_succ_fault (M := Sys2Proof.core) h k).symm
    | refused r => exact absurd h (step_not_refused s r)

end Sys2Proof.Machine
end

