-- ==== Sys2Proof/Machine/Assembler.lean ====
section
/-! DEFINITION. The command-program notation (R68, R69, D22): one command or pseudo-command a line, and what each line
stands for. It is notation only: a program is the list of commands it expands to. -/

namespace Sys2Proof.Machine

/-- ZERO[k] = 0 for all k (R68). -/
def zeroMaterial : Words := Vector.replicate 256 0

/-- IOTA[k] = k (R68). -/
def iotaMaterial : Words := Vector.ofFn fun k : Fin 256 => BitVec.ofNat 64 k.val

/-- A line of a command program (R68, R69). -/
inductive Line where
  | command (i : Instr)
  | seedDefault
  | seedZero
  | nextN (k : Nat)
deriving DecidableEq, Repr

/-- The commands a line stands for (R69). -/
def expandLine : Line → List Instr
  | .command i => [i]
  | .seedDefault => [.seed false zeroMaterial]
  | .seedZero => [.seed true zeroMaterial]
  | .nextN k => List.replicate k .next

/-- `gen` only when EXPOSE_GENERATE (R68), `next.n k` only for k >= 1 (R69). -/
def lineWellFormed (cfg : Config) : Line → Bool
  | .command i => i.wellFormed cfg
  | .seedDefault => true
  | .seedZero => true
  | .nextN k => decide (1 ≤ k)

/-- The commands of a program (R68). -/
def expandProgram (lines : List Line) : List Instr := lines.flatMap expandLine

/-! ### Reading a line (R68; entry 15) -/

/-- A `--` starts a comment (R68). -/
def stripComment : List Char → List Char
  | [] => []
  | '-' :: '-' :: _ => []
  | c :: cs => c :: stripComment cs

/-- Put a finished word before the tokens, unless it is empty. -/
def pushToken (word : List Char) (tokens : List (List Char)) : List (List Char) :=
  if word.isEmpty then tokens else word :: tokens

/-- The word being read and the tokens after it, from the right: blanks separate words, a comma is a token. -/
def lexStep (c : Char) (acc : List Char × List (List Char)) : List Char × List (List Char) :=
  if c = ' ' then ([], pushToken acc.1 acc.2)
  else if c = ',' then ([], [','] :: pushToken acc.1 acc.2)
  else (c :: acc.1, acc.2)

/-- The tokens of a line. -/
def lexLine (text : List Char) : List (List Char) :=
  let acc := (stripComment text).foldr lexStep ([], [])
  pushToken acc.1 acc.2

/-- The flag U as it is written: 0 or 1 (R68). -/
def readFlag (token : List Char) : Option Bool :=
  if token = ['0'] then some false else if token = ['1'] then some true else none

/-- A decimal number. -/
def readNumber (token : List Char) : Option Nat :=
  if !token.isEmpty && token.all Char.isDigit then
    some (token.foldl (fun n c => 10 * n + (c.toNat - '0'.toNat)) 0)
  else none

/-- The two named vectors of R68; a program may name others. -/
def standardNames : List (List Char × Words) :=
  [(['Z', 'E', 'R', 'O'], zeroMaterial), (['I', 'O', 'T', 'A'], iotaMaterial)]

/-- The line a text stands for: `some none` for a blank or comment line, `none` for no line of the notation. -/
def readLine (names : List (List Char × Words)) (text : List Char) : Option (Option Line) :=
  match lexLine text with
  | [] => some none
  | [word] =>
    if word = ['n', 'e', 'x', 't'] then some (some (.command .next))
    else if word = ['g', 'e', 'n'] then some (some (.command .gen))
    else if word = ['s', 'e', 'e', 'd', '.', 'd', 'e', 'f', 'a', 'u', 'l', 't'] then some (some .seedDefault)
    else if word = ['s', 'e', 'e', 'd', '.', 'z', 'e', 'r', 'o'] then some (some .seedZero)
    else none
  | [word, count] =>
    if word = ['n', 'e', 'x', 't', '.', 'n'] then (readNumber count).map fun k => some (.nextN k) else none
  | [word, flag, comma, name] =>
    if word = ['s', 'e', 'e', 'd'] ∧ comma = [','] then
      match readFlag flag, names.lookup name with
      | some useSeed, some material => some (some (.command (.seed useSeed material)))
      | _, _ => none
    else none
  | _ => none

end Sys2Proof.Machine
end

