-- ==== Sys2Proof/Tests/Slice0.lean ====
section
/-! SUPPORT. The model's own tests: the well-formedness checks refuse an ill-formed term each; decoding of codes written
out from R61; the vectors of 95_test_vectors.md for the operations and commands; and a witness for the hypotheses of
each statement of Certificates/Slice0/Obligations.lean. Expected values come from the spec. -/

-- One kernel evaluation at a time: each would otherwise start a thread of its own.
set_option Elab.async false

namespace Sys2Proof.Tests

open Sys2Proof Sys2Proof.Machine

/-! ### Helpers -/

def exposed : Config := { exposeGenerate := true, wordByteOrder := .little }

def hidden : Config := { exposeGenerate := false, wordByteOrder := .big }

/-- A live, seeded state with the given cursor, its words counting up (results[k] = k) so that a wrong index shows. -/
def seededAt (cfg : Config) (cursor : BitVec 9) : State :=
  { State.launch cfg ResetContents.zero with results := iotaMaterial, accB := 255, seeded := true, cursor }

/-- Whether an outcome is a next state with a property. -/
def nextWith (o : Outcome) (p : State → Bool) : Bool :=
  match o with
  | .next s => p s
  | .fault _ => false
  | .refused _ => false

/-- Whether an outcome is the stop of a faulted instance. -/
def stuckWith (o : Outcome) (kind : FaultKind) : Bool :=
  match o with
  | .next _ => false
  | .fault (.stuck k) => k == kind
  | .refused _ => false

/-- Whether a decoded command is a SEED with the flag and with these words among its operands. -/
def seedWith (i : Option Instr) (useSeed : Bool) (words : List (Index × Word)) : Bool :=
  match i with
  | some (.seed u material) => u == useSeed && words.all fun kw => readWord material kw.1 == kw.2
  | _ => false

/-- The request of a code without operands. -/
def codeRequest (cmd : Byte) : Request := requestAlone { cmd, operand := zeroWords }

/-! ### Well-formedness: one ill-formed term for each check -/

theorem test_gen_illFormed_when_not_exposed : Instr.gen.wellFormed hidden = false := by decide

theorem test_draw_cursor_257_illFormed :
    ({ ResetContents.zero with cursor := 257 } : ResetContents).wellFormed = false := by decide

theorem test_line_next_n_0_illFormed : lineWellFormed exposed (.nextN 0) = false := by decide

theorem test_line_gen_illFormed_when_not_exposed : lineWellFormed hidden (.command .gen) = false := by decide

/-! ### Decoding: codes bit by bit from R61, and V40 -/

theorem test_decode_next : decode exposed { cmd := 0b00000000, operand := zeroWords } = .ok .next := rfl

theorem test_decode_seed_ignoring : seedWith (decodeTableWord 8 0b00000001) false [(0, 0), (255, 0)] = true := by
  decide +kernel

theorem test_decode_seed_incorporating :
    seedWith (decodeTableWord 8 0b00000101) true [(0, 0), (255, 0)] = true := by decide +kernel

/-- R65: with more bits given than the code's, S[0] and S[1] follow the code (entry 12). -/
theorem test_decode_seed_operand :
    seedWith (decodeTableWord 136 0x00000000000000070000000000000009_05) true [(0, 9), (1, 7), (2, 0)] = true := by
  decide +kernel

theorem test_decode_gen : decodeTableWord 8 0b00000010 = some .gen := by decide

theorem test_decode_gen_not_exposed :
    decode hidden { cmd := 0b00000010, operand := zeroWords } = .error (.reserved 0b00000010) := rfl

/-- V40: the 252 codes that are Reserved with GEN exposed. -/
theorem test_decode_reserved_codes :
    ((List.range 256).filter fun w => (decodeTableWord 8 w).isNone) =
      [3, 4] ++ ((List.range 256).filter fun w => 6 ≤ w) := by decide +kernel

/-- R67: a SEED's operand words follow the code, S[0] first, each word in the instance's byte order. -/
theorem test_operand_word_bytes :
    bytesOfWord .little 0x0102030405060708 = [8, 7, 6, 5, 4, 3, 2, 1] ∧
      bytesOfWord .big 0x0102030405060708 = [1, 2, 3, 4, 5, 6, 7, 8] ∧
      wordOfBytes .big [1, 2, 3, 4, 5, 6, 7, 8] = 0x0102030405060708 := by decide +kernel

theorem test_bytes_of_short_commands :
    decodeBytes hidden [0x00, 0x02] = .ok (.next, [0x02]) ∧ encodeBytes exposed .gen = [0x02] ∧
      decodeBytes exposed [0x05, 0x00] = .error .incomplete := ⟨rfl, rfl, rfl⟩

/-! ### MIX: V1, V4, V5 -/

/-- V1. -/
theorem test_mix_golden :
    mix goldenMixer =
      { a := 0xffbf17b3db54a2e6, b := 0xffbf17b3de995573, c := 0x205a3e2eef35606e, d := 0x9e782c2584f3db35,
        e := 0x73d308522fbb1ce7, f := 0x1c9685dc55719f5f, g := 0x7d9c87ab0c865c15, h := 0xffbf4c207c714070 } := by
  decide +kernel

/-- V4. -/
theorem test_mix_one_bit :
    mix { a := 1, b := 0, c := 0, d := 0, e := 0, f := 0, g := 0, h := 0 } =
      { a := 0xffffffffff000001, b := 0xfffc0000000001ff, c := 0xfffff000000ffdff, d := 0x00000001ff000001,
        e := 0x03fbfffc01ffbe00, f := 0x00040ffffff00202, g := 0x00000ffe00f00401, h := 0xfffffffe01000000 } := by
  decide +kernel

/-! ### FLAVOUR and INDEX: V10, V11 -/

/-- V10, the row of 0x0123456789abcdef. -/
theorem test_flavour_row :
    flavour 0 0x0123456789abcdef = 0x522d8fe1cbb43210 ∧ flavour 1 0x0123456789abcdef = 0x012a5f4cb5e69380 ∧
      flavour 2 0x0123456789abcdef = 0x35753dfd35753def ∧ flavour 3 0x0123456789abcdef = 0x01234567893a6f5c := by
  decide +kernel

/-- V11. -/
theorem test_index_rows :
    [0x0, 0x7, 0x8, 0x7F8, 0x800, 0x7FF800, 0x80000, 0xFFFFFFFFFFFFFFFF].map
        (fun v : Word => ((indexOf v).val, (indexOf (v >>> 8)).val)) =
      [(0, 0), (0, 0), (1, 0), (255, 0), (0, 1), (0, 255), (0, 0), (255, 255)] := by decide +kernel

/-! ### STEP and the prologue on the test state T: V12, V14 -/

/-- T: memory[k] = k, accumulators zero. -/
def stateT : State := { State.launch exposed ResetContents.zero with memory := iotaMaterial }

/-- V12: a, memory[3] and results[3] after steps 0 to 3. -/
theorem test_steps_0_to_3 :
    (blockSteps 4 (blockPrologue stateT)).a = 0x00000000000fd202 ∧
      readWord (blockSteps 4 (blockPrologue stateT)).memory 3 = 0x00000000000fd37e ∧
      (List.map (readWord (blockSteps 4 (blockPrologue stateT)).results) [0, 1, 2, 3]) = [0x80, 0x81, 0xfc, 0xfd] := by
  decide +kernel

/-- V12: a and memory[7] after steps 4 to 7 as well, the second round of flavours. -/
theorem test_steps_4_to_7 :
    (blockSteps 8 (blockPrologue stateT)).a = 0xf81f58d13545bdef ∧
      readWord (blockSteps 8 (blockPrologue stateT)).memory 7 = 0xf81f58d13545beb7 ∧
      (List.map (readWord (blockSteps 8 (blockPrologue stateT)).results) [4, 5, 6, 7]) = [0x09, 0xbb, 0x48, 0xbe] := by
  decide +kernel

/-- V14: acc_c wraps, the prologue's b is 5 and results[0] is 0x84. -/
theorem test_prologue_wraps :
    (blockPrologue { stateT with accB := 5, accC := 0xFFFFFFFFFFFFFFFF }).b = 5 ∧
      (blockSteps 1 (blockPrologue { stateT with accB := 5, accC := 0xFFFFFFFFFFFFFFFF })).b = 0x84 := by
  decide +kernel

/-! ### SEED: V2, V24, V41 -/

/-- V2. -/
theorem test_scrambled :
    scrambled =
      { a := 0x647c4677a2884b7c, b := 0xb9f8b322c73ac862, c := 0x8c0ea5053d4712a0, d := 0xb29b2e824a595524,
        e := 0x82f053db8355e0ce, f := 0x48fe4a0fa5a09315, g := 0xae985bf2cbfc89ed, h := 0x98f5704f6c44c0ab } := by
  decide +kernel

/-- V24: memory[0] and memory[7] after pass 1, with U = 0, and with U = 1 and S = IOTA. -/
theorem test_pass1_first_group :
    [0, 7].map (readWord (pass1 false iotaMaterial 1 { words := scrambled, memory := zeroWords }).memory) =
        [0xf24e3209fa0f019b, 0xb1c575e1bb1e8496] ∧
      [0, 7].map (readWord (pass1 true iotaMaterial 1 { words := scrambled, memory := zeroWords }).memory) =
        [0xf24e3209fe010193, 0xb1c575e1b73084ad] := by decide +kernel

/-- V24: memory[0] after both passes, with U = 1 and S = IOTA: the first group of pass 2, after all of pass 1. -/
theorem test_expandMemory_iota : readWord (expandMemory true iotaMaterial zeroWords) 0 = 0x4621616bc4d38f63 := by
  decide +kernel

/-- V41: SEED is never Unseeded; cursor 256 and acc_c = 1 as in V20. -/
theorem test_seed_at_reset :
    nextWith (exec (.seed false zeroMaterial) State.reset) (fun t =>
      t.fault.isNone && t.seeded && t.cursor == 256 && t.accC == 1 && t.output.isEmpty) = true := by decide +kernel

/-! ### NEXT: V30, V41 -/

/-- V30: cursor 256 serves results[255] and leaves 255. -/
theorem test_next_first :
    nextWith (exec .next (seededAt exposed 256)) (fun t => t.cursor == 255 && t.output == [255] && t.accC == 0) =
      true := by decide +kernel

/-- V30: cursor 1 serves results[0], leaves 0 and does not regenerate; V41: cursor 300 faults. -/
theorem test_next_last_and_illFormed :
    nextWith (exec .next (seededAt exposed 1)) (fun t => t.cursor == 0 && t.output == [0] && t.accC == 0) = true ∧
      nextWith (exec .next (seededAt exposed 300)) (fun t =>
        t.fault == some (.illFormedState 300) && t.output.isEmpty && t.cursor == 300) = true := by decide +kernel

/-- V30: cursor 0 regenerates (acc_c 1 -> 2) and leaves 255. -/
theorem test_next_regenerates :
    nextWith (exec .next { seededAt exposed 0 with accC := 1 }) (fun t =>
      t.cursor == 255 && t.accC == 2 && t.output.length == 1) = true := by decide +kernel

/-! ### GEN: V31, V41 -/

/-- V31: GEN leaves the cursor; acc_c counts the block. -/
theorem test_gen_keeps_cursor :
    nextWith (exec .gen { seededAt exposed 254 with accC := 1 }) (fun t =>
      t.cursor == 254 && t.accC == 2 && t.output.isEmpty && t.fault.isNone) = true := by decide +kernel

/-- V41: GEN faults with Unseeded at reset, with ReservedCommand where it is not exposed. -/
theorem test_gen_faults :
    nextWith (exec .gen State.reset) (fun t => t.fault == some (.unseeded 0x02)) = true ∧
      nextWith (exec .gen (seededAt hidden 256)) (fun t => t.fault == some (.reservedCommand 0x02)) = true := by
  decide +kernel

/-! ### Steps: V41, P4, and the host's fetch -/

/-- V41: at reset NEXT faults with Unseeded, and code 0x06 with ReservedCommand (priority, R173). -/
theorem test_step_faults_at_reset :
    nextWith (step (State.reset.withFetchWord 8 0x00)) (fun t => t.fault == some (.unseeded 0x00)) = true ∧
      nextWith (step (State.reset.withFetchWord 8 0x06)) (fun t =>
        t.fault == some (.reservedCommand 0x06) && t.pending.isEmpty) = true := by decide +kernel

/-- R173: a Reserved code that races is a Race. -/
theorem test_step_race_first :
    nextWith (step { State.reset with pending := [{ codeRequest 0x06 with issue := .secondHost }] }) (fun t =>
      t.fault == some (.race 0x06)) = true := by decide +kernel

/-- P4: a faulted instance has no step, not even for SEED. -/
theorem test_step_stuck :
    stuckWith (step { (State.reset.withFetchWord 8 0x01) with fault := some (.unseeded 0x00) }) (.unseeded 0x00) =
      true := by decide +kernel

theorem test_step_fetches_seed :
    nextWith (step (State.reset.withFetchWord 8 0x05)) (fun t => t.seeded && t.fault.isNone && t.pending.isEmpty) =
      true := by decide +kernel

/-! ### The command-program notation: R68, R69 -/

theorem test_readLine_next_n :
    readLine standardNames ['n', 'e', 'x', 't', '.', 'n', ' ', '1', '2', ' ', '-', '-', 'k'] =
      some (some (.nextN 12)) := by decide +kernel

theorem test_readLine_seed :
    (match readLine standardNames ['s', 'e', 'e', 'd', ' ', '1', ',', ' ', 'I', 'O', 'T', 'A'] with
      | some (some (.command i)) => seedWith (some i) true [(0, 0), (200, 200)]
      | _ => false) = true := by decide +kernel

theorem test_expand_pseudo_commands :
    expandProgram [.seedDefault, .nextN 2, .seedZero] =
      [.seed false zeroMaterial, .next, .next, .seed true zeroMaterial] := rfl

/-! ### Witnesses: concrete states that meet the hypotheses of each statement -/

theorem witness_CodesDecodeByTheTable :
    ∃ (s : State) (t : Transaction) (rest : List Request), s.live ∧
      s.pending = { transaction := t, issue := .alone } :: rest ∧
      decode s.config t = .error (.reserved 0xFF) :=
  ⟨{ State.reset with pending := [codeRequest 0xFF] }, { cmd := 0xFF, operand := zeroWords }, [], rfl, rfl, rfl⟩

theorem witness_DecodeEncodeBytes : Instr.gen.wellFormed exposed = true ∧ Instr.next.wellFormed hidden = true ∧
    (Instr.seed true iotaMaterial).wellFormed hidden = true := by decide

theorem witness_DecodedBytesAreTheEncoding : decodeBytes exposed [0x02, 0xFF] = .ok (.gen, [0xFF]) := rfl

theorem witness_BytesDeliverTheProgram :
    ∀ i ∈ [Instr.next, .gen, .next], i.wellFormed State.reset.config = true := by decide

theorem witness_StepRunsTheDecodedCommand :
    ∃ (s : State) (t : Transaction) (rest : List Request), s.live ∧
      s.pending = { transaction := t, issue := .alone } :: rest ∧ decode s.config t = .ok .next :=
  ⟨{ State.reset with pending := [codeRequest 0x00] }, { cmd := 0x00, operand := zeroWords }, [], rfl, rfl, rfl⟩

theorem witness_FetchWordRunsNext :
    State.reset.live ∧ decode State.reset.config (tableTransaction 8 0x00) = .ok .next := ⟨rfl, rfl⟩

theorem witness_IdleBlockHoldsItsState : State.reset.live ∧ State.reset.pending = [] := ⟨rfl, rfl⟩

/-- Each fault kind of FaultKindsCausesAndPriority is recorded somewhere, the ill-formed cursor at its bounds. -/
theorem witness_FaultKindsCausesAndPriority :
    nextWith (step { State.reset with pending := [{ codeRequest 0x00 with issue := .overlapping }] }) (fun t =>
        t.fault == some (.race 0x00)) = true ∧
      nextWith (step { State.reset with pending := [codeRequest 0x03] }) (fun t =>
        t.fault == some (.reservedCommand 0x03)) = true ∧
      nextWith (step { State.reset with pending := [codeRequest 0x02] }) (fun t =>
        t.fault == some (.unseeded 0x02)) = true ∧
      nextWith (step { seededAt exposed 257 with pending := [codeRequest 0x00] }) (fun t =>
        t.fault == some (.illFormedState 257)) = true ∧
      nextWith (step { seededAt exposed 511 with pending := [codeRequest 0x00] }) (fun t =>
        t.fault == some (.illFormedState 511)) = true := by decide +kernel

theorem witness_FaultIsTheOnlyEffectAndSticky :
    State.reset.live ∧
      nextWith (step { State.reset with pending := [codeRequest 0x00] }) (fun t =>
        t.fault == some (.unseeded 0x00)) = true ∧
      ({ State.reset with fault := some (.race 0x01) } : State).fault = some (.race 0x01) := by decide +kernel

/-- The four clauses of NextServesOneWord: unseeded; cursor 257 and 511; cursor 0; cursor 1 and 256. -/
theorem witness_NextServesOneWord :
    (State.reset.live ∧ State.reset.seeded = false) ∧
      ((seededAt exposed 257).live ∧ (seededAt exposed 257).seeded = true ∧ 256 < (seededAt exposed 257).cursor.toNat) ∧
      (256 < (seededAt exposed 511).cursor.toNat) ∧
      ((seededAt exposed 0).live ∧ (seededAt exposed 0).seeded = true ∧ (seededAt exposed 0).cursor = 0) ∧
      (seededAt exposed 1).cursor.toNat = (0 : Index).val + 1 ∧
      (seededAt exposed 256).cursor.toNat = (255 : Index).val + 1 := by decide

/-- Also for NextAlwaysCompletes and NextFrame: both ends of the range, and each clause's cursor. -/
theorem witness_NextRegeneratesExactlyAtZero :
    (seededAt exposed 0).live ∧ (seededAt exposed 0).seeded = true ∧ (seededAt exposed 0).cursor.toNat ≤ 256 ∧
      (seededAt exposed 1).cursor = 1 ∧ (seededAt exposed 256).cursor.toNat ≤ 256 ∧
      (seededAt exposed 256).cursor ≠ 0 := by decide

theorem witness_OutputOrderIsDescending :
    ({ seededAt exposed 256 with pending := [codeRequest 0x00, codeRequest 0x00] } : State).pending =
        List.replicate 2 (requestAlone (encode .next)) ++ [] ∧
      (seededAt exposed 256).live ∧ (seededAt exposed 256).seeded = true ∧
      (seededAt exposed 256).cursor.toNat ≤ 256 ∧ 256 ≤ (seededAt exposed 256).cursor.toNat :=
  ⟨rfl, rfl, rfl, by decide, by decide⟩

theorem witness_BlockBoundary :
    ∃ t0, exec (.seed true iotaMaterial) { State.reset with pending := [codeRequest 0x00] } = .next t0 ∧
      t0.pending = List.replicate 1 (requestAlone (encode .next)) := ⟨_, rfl, rfl⟩

/-- The three clauses of GenRunsOneBlock. -/
theorem witness_GenRunsOneBlock :
    ((seededAt exposed 0).live ∧ (seededAt exposed 0).config.exposeGenerate = true ∧
        (seededAt exposed 0).seeded = true) ∧
      (State.reset.config.exposeGenerate = true ∧ State.reset.seeded = false) ∧
      (seededAt hidden 0).config.exposeGenerate = false := by decide

/-- Index and step bounds of BlockWritesEachWordOnce and SecondCursorReads: both sides of every comparison. -/
theorem witness_BlockBounds :
    (0 ≤ (0 : Index).val ∧ (255 : Index).val < 256) ∧ ((0 : Index).val < 128 ∧ (127 : Index).val < 128) ∧
      (128 ≤ (128 : Index).val ∧ 128 ≤ (255 : Index).val) := by decide

/-- V12: at step 0 of T the first indirection selects index 0 = m; a memory of eights makes it select 1 > m, and at
step 2 index 1 < m is selected when memory[2] = 8; the second indirection of step 0 of T selects index 0 = m. -/
theorem witness_IndirectionsInsideAStep :
    (readWord stateT.memory 0).toNat / 8 % 256 = 0 ∧
      (readWord (writeWord stateT.memory 0 8) 0).toNat / 8 % 256 = 1 ∧
      (readWord (blockSteps 2 (blockPrologue { stateT with memory := writeWord stateT.memory 2 8 })).memory 2).toNat
        / 8 % 256 = 1 ∧
      (readWord (blockStep 0 (blockPrologue stateT)).memory 0).toNat / 2048 % 256 = 0 := by decide +kernel

theorem witness_AccCCountsBlocksAndWraps :
    ({ stateT with accC := 0xFFFFFFFFFFFFFFFF } : State).accC = 0xFFFFFFFFFFFFFFFF := rfl

/-- For every statement about SEED on live instances, and for SeedForgetsThePriorState's faulted clause. -/
theorem witness_SeedStatements :
    State.reset.live ∧ (seededAt hidden 300).live ∧
      nextWith (exec (.seed true zeroMaterial) (seededAt hidden 300)) (fun t => t.live) = true ∧
      ({ State.reset with fault := some (.unseeded 0x00) } : State).fault = some (.unseeded 0x00) := by decide +kernel

/-- For the frames: GEN answers a next state on its fault paths and on its own, NEXT on each of its. -/
theorem witness_Frames :
    nextWith (exec .gen (seededAt exposed 3)) (fun t => t.live) = true ∧
      nextWith (exec .gen (seededAt hidden 3)) (fun t => t.fault.isSome) = true ∧
      nextWith (exec .next (seededAt exposed 3)) (fun t => t.live) = true ∧
      nextWith (exec .next (seededAt exposed 0)) (fun t => t.live) = true ∧
      nextWith (exec .next State.reset) (fun t => t.fault.isSome) = true := by decide +kernel

/-- Invariant states: seeded at both ends of the cursor's range, and the step that keeps it. -/
theorem witness_StepKeepsInv :
    (seededAt exposed 0).Inv ∧ (seededAt exposed 256).Inv ∧
      nextWith (step { seededAt exposed 256 with pending := [codeRequest 0x00] }) (fun t => decide t.Inv) = true := by
  decide +kernel

theorem witness_ResetMeetsInv :
    ResetContents.zero.wellFormed = true ∧
      ({ ResetContents.zero with cursor := 256 } : ResetContents).wellFormed = true := by decide

theorem witness_RunStatements :
    nextWith (runSteps 1 { seededAt exposed 2 with pending := [codeRequest 0x00] }) (fun t => t.pending.isEmpty) =
        true ∧
      stuckWith (runSteps 2 { State.reset with pending := [codeRequest 0x00, codeRequest 0x01] }) (.unseeded 0x00) =
        true := by decide +kernel

theorem witness_CompletedRunNeverFaulted :
    Completes 1 { seededAt exposed 2 with pending := [codeRequest 0x00] } (serve (seededAt exposed 2)) :=
  ⟨rfl, rfl, rfl⟩

theorem witness_BootNeedsASeed :
    State.reset.live ∧ State.reset.seeded = false ∧ State.reset.config.exposeGenerate = true := ⟨rfl, rfl, rfl⟩

theorem witness_OutputDeterminedBySeed :
    ∃ (s1 s2 : State) (t : Transaction), s1.live ∧ s2.live ∧ s1.config = s2.config ∧
      s1.pending = [{ transaction := t, issue := .alone }] ∧ s2.pending = s1.pending ∧
      decode s1.config t = .ok (.seed false zeroWords) ∧ s1.cursor ≠ s2.cursor :=
  ⟨{ seededAt exposed 7 with pending := [codeRequest 0x01] }, { seededAt exposed 0 with pending := [codeRequest 0x01] },
    { cmd := 0x01, operand := zeroWords }, rfl, rfl, rfl, rfl, rfl, rfl, by decide⟩

theorem witness_InstancesAreIndependent :
    ((stepInstance 0 [seededAt exposed 1, State.reset]).map fun o =>
        match o with | .next all => all.length | .fault _ => 0 | .refused _ => 0) = some 2 ∧
      ((stepInstance 1 [seededAt exposed 1, State.reset]).map fun o =>
        match o with | .next all => all.length | .fault _ => 0 | .refused _ => 0) = some 2 := by decide +kernel

end Sys2Proof.Tests
end

/-! PROOFS. Scope: the arrays of whole words (R11, R42). -/

namespace Sys2Proof.Machine

/-- Settles O38, by the model's two laws of a write: read at the index written, and at any other index. -/
theorem readAfterWrite : Obligations.ReadAfterWrite := fun v i _ x =>
  ⟨readWord_writeWord_same v i x, fun hij => readWord_writeWord_other hij v x⟩

end Sys2Proof.Machine

/-! PROOFS. Scope: the state's invariant and frames (R30, R31), and what reset leaves unobservable (R32). -/

namespace Sys2Proof.Machine

/-! ### The refill of NEXTWORD -/

@[simp] theorem refill_seeded (s : State) : (refill s).seeded = s.seeded := by unfold refill; split <;> rfl
@[simp] theorem refill_fault (s : State) : (refill s).fault = s.fault := by unfold refill; split <;> rfl
@[simp] theorem refill_config (s : State) : (refill s).config = s.config := by unfold refill; split <;> rfl
@[simp] theorem refill_pending (s : State) : (refill s).pending = s.pending := by unfold refill; split <;> rfl

theorem refill_of_zero {s : State} (h : s.cursor = 0) : refill s = { block s with cursor := 256 } := if_pos h

theorem refill_of_ne_zero {s : State} (h : s.cursor ≠ 0) : refill s = s := if_neg h

/-! ### Commands before a SEED, and GEN where it is not exposed -/

theorem execNext_unseeded {s : State} (h : s.fault = none) (hs : s.seeded = false) :
    execNext s = .next (raiseFault (.unseeded cmdNext) s) := by
  rw [execNext, unlessFaulted_live h, requireSeeded_unseeded hs]

theorem execGen_unseeded {s : State} (h : s.fault = none) (he : s.config.exposeGenerate = true)
    (hs : s.seeded = false) : execGen s = .next (raiseFault (.unseeded cmdGen) s) := by
  rw [execGen, unlessFaulted_live h, if_pos he, requireSeeded_unseeded hs]

theorem execGen_hidden {s : State} (h : s.fault = none) (he : s.config.exposeGenerate = false) :
    execGen s = .next (raiseFault (.reservedCommand cmdGen) s) := by
  rw [execGen, unlessFaulted_live h, if_neg (by simp [he])]

/-! ### The invariant -/

/-- The last step of a block leaves in b the word it writes to results[255] (R129). -/
theorem block_accB_eq_last_result (s : State) : (block s).accB = readWord (block s).results 255 := by
  rw [block_accB, block_results, blockRun_eq]
  exact (blockSteps_results_behind 256 _ 255 (by decide) le_rfl).symm

theorem raiseFault_inv {s : State} (h : s.Inv) (kind : FaultKind) : (raiseFault kind s).Inv := h

theorem block_inv {s : State} (h : s.wellFormed) : (block s).Inv := ⟨h, fun _ => block_accB_eq_last_result s⟩

theorem seedExpand_inv (useSeed : Bool) (material : Words) (s : State) : (seedExpand useSeed material s).Inv := by
  refine ⟨?_, fun _ => ?_⟩
  · simp [State.wellFormed]
  · rw [seedExpand_accB, seedExpand_results]
    exact block_accB_eq_last_result _

theorem refill_inv {s : State} (h : s.Inv) : (refill s).Inv := by
  by_cases hc : s.cursor = 0
  · rw [refill_of_zero hc]
    exact ⟨le_refl 256, fun _ => block_accB_eq_last_result s⟩
  · rwa [refill_of_ne_zero hc]

theorem refill_cursor_ne_zero (s : State) : (refill s).cursor ≠ 0 := by
  by_cases hc : s.cursor = 0
  · rw [refill_of_zero hc]
    exact (by decide : (256 : BitVec 9) ≠ 0)
  · rwa [refill_of_ne_zero hc]

theorem serve_inv {s : State} (h : s.Inv) (hc : s.cursor ≠ 0) : (serve s).Inv := by
  obtain ⟨hwf, hacc⟩ := h
  refine ⟨?_, hacc⟩
  rw [State.wellFormed, serve_cursor]
  bv_omega

theorem exec_keeps_inv {s t : State} {i : Instr} (hs : s.Inv) (h : exec i s = .next t) : t.Inv := by
  cases i with
  | next =>
    obtain ⟨-, ⟨-, rfl⟩ | ⟨-, -, rfl⟩ | ⟨-, -, rfl⟩⟩ := execNext_cases h
    · exact raiseFault_inv hs _
    · exact raiseFault_inv hs _
    · exact serve_inv (refill_inv hs) (refill_cursor_ne_zero s)
  | seed useSeed material =>
    obtain ⟨-, rfl⟩ := execSeed_cases h
    exact seedExpand_inv useSeed material s
  | gen =>
    obtain ⟨-, ⟨-, rfl⟩ | ⟨-, -, rfl⟩ | ⟨-, -, rfl⟩⟩ := execGen_cases h
    · exact raiseFault_inv hs _
    · exact raiseFault_inv hs _
    · exact block_inv hs.1

/-- Taking a request changes `pending` only, which the invariant does not read. -/
theorem inv_withPending {s : State} (h : s.Inv) (requests : List Request) :
    ({ s with pending := requests } : State).Inv := h

/-- Settles O40, by the cases of a step: a fault changes no element the invariant reads, and each command keeps it. -/
theorem stepKeepsInv : Obligations.StepKeepsInv := by
  intro s t hs h
  obtain ⟨_, _, e⟩ | ⟨_, _, e⟩ | ⟨r, rest, _, _, _, e⟩ | ⟨r, rest, _, _, _, _, _, e⟩ | ⟨r, rest, i, _, _, _, _, e⟩ :=
    step_cases s
  · simp [e] at h
  · obtain rfl : s = t := by simpa [e] using h
    exact hs
  · obtain rfl := Host.Outcome.next.inj (e.symm.trans h)
    exact raiseFault_inv (inv_withPending hs rest) _
  · obtain rfl := Host.Outcome.next.inj (e.symm.trans h)
    exact raiseFault_inv (inv_withPending hs rest) _
  · exact exec_keeps_inv (inv_withPending hs rest) (e.symm.trans h)

theorem launch_inv (cfg : Config) {draw : ResetContents} (h : draw.wellFormed = true) :
    (State.launch cfg draw).Inv :=
  ⟨of_decide_eq_true h, fun hs => by simp at hs⟩

/-- Settles O39: a launch is not seeded, so its drawn cursor is all the invariant asks about. -/
theorem resetMeetsInv : Obligations.ResetMeetsInv :=
  ⟨fun cfg _ h => launch_inv cfg h, launch_inv Config.atReset (by decide)⟩

/-! ### Frames -/

theorem raiseFault_sameGenerator (kind : FaultKind) (s : State) : SameGenerator (raiseFault kind s) s :=
  ⟨rfl, rfl, rfl, rfl, rfl, rfl, rfl⟩

/-- Settles O36, by everything SEED and GEN can answer. -/
theorem seedAndGenFrame : Obligations.SeedAndGenFrame := by
  constructor
  · intro s t useSeed material h
    obtain ⟨-, rfl⟩ := execSeed_cases h
    simp
  · intro s t h
    obtain ⟨hf, ⟨-, rfl⟩ | ⟨-, -, rfl⟩ | ⟨-, -, rfl⟩⟩ := execGen_cases h
    · simp [raiseFault_sameGenerator, hf]
    · simp [raiseFault_sameGenerator, hf]
    · simp [hf]

/-- Settles O37, by everything NEXT can answer: it touches the arrays and accumulators only through a refill. -/
theorem nextFrame : Obligations.NextFrame := by
  intro s t h
  obtain ⟨hf, ⟨-, rfl⟩ | ⟨-, -, rfl⟩ | ⟨hs, -, rfl⟩⟩ := execNext_cases h
  · simp [raiseFault_sameGenerator]
  · simp [raiseFault_sameGenerator]
  · refine ⟨by simp, by simp, by simp, fun hc => ?_, by simp [hf]⟩
    have hc : s.cursor ≠ 0 := by simpa [hs] using hc
    simp [refill_of_ne_zero hc]

/-! ### SEED overwrites all it reads of the state before (R103, R110) -/

/-- The words of pass 1 do not depend on the memory it fills. -/
theorem pass1_words_of_memory (useSeed : Bool) (material : Words) (n : Nat) (words : Mixer) (memory memory' : Words) :
    (pass1 useSeed material n { words, memory }).words =
      (pass1 useSeed material n { words, memory := memory' }).words := by
  induction n with
  | zero => rfl
  | succ n ih => simp only [pass1_succ, pass1Group, ih]

/-- A group that pass 1 has filled stays to its end (R103). -/
theorem pass1_memory_behind (useSeed : Bool) (material : Words) (n : Nat) (w : SeedWork) (g : Fin 32) (j : Fin 8)
    (h : g.val < n) (hn : n ≤ 32) :
    readWord (pass1 useSeed material n w).memory (groupIndex g j) =
      mixerWord (pass1 useSeed material (g.val + 1) w).words j := by
  induction n with
  | zero => omega
  | succ n ih =>
    have hval : (Fin.ofNat 32 n).val = n := Nat.mod_eq_of_lt (by omega)
    by_cases e : n = g.val
    · have hg : Fin.ofNat 32 n = g := Fin.ext (hval.trans e)
      rw [← e, pass1_succ, hg]
      exact storeGroup_same g _ _ j
    · have hne : Fin.ofNat 32 n ≠ g := fun e' => e (hval.symm.trans (congrArg Fin.val e'))
      rw [pass1_succ, ← ih (by omega) (by omega)]
      exact storeGroup_otherGroup hne _ _ j

theorem seedWork_ext {u v : SeedWork} (hwords : u.words = v.words) (hmem : u.memory = v.memory) : u = v := by
  cases u
  cases v
  simp_all

/-- All 32 groups of pass 1 leave nothing of the memory they started from. -/
theorem pass1_of_memory (useSeed : Bool) (material : Words) (words : Mixer) (memory memory' : Words) :
    pass1 useSeed material 32 { words, memory } = pass1 useSeed material 32 { words, memory := memory' } := by
  have hwords := fun n => pass1_words_of_memory useSeed material n words memory memory'
  refine seedWork_ext (hwords 32) (words_ext fun i => ?_)
  obtain ⟨g, j, rfl⟩ := exists_groupIndex i
  rw [pass1_memory_behind _ _ _ _ g j g.isLt le_rfl, pass1_memory_behind _ _ _ _ g j g.isLt le_rfl, hwords]

theorem expandMemory_of_memory (useSeed : Bool) (material memory memory' : Words) :
    expandMemory useSeed material memory = expandMemory useSeed material memory' := by
  cases useSeed with
  | false => rw [expandMemory_fixed, expandMemory_fixed, pass1_of_memory]
  | true => rw [expandMemory_useSeed, expandMemory_useSeed, pass1_of_memory]

/-- No step of a block reads `results`. -/
theorem blockSteps_of_results (n : Nat) (w : BlockWork) (results : Words) :
    (blockSteps n { w with results }).memory = (blockSteps n w).memory ∧
      (blockSteps n { w with results }).a = (blockSteps n w).a ∧
      (blockSteps n { w with results }).b = (blockSteps n w).b := by
  induction n with
  | zero => exact ⟨rfl, rfl, rfl⟩
  | succ n ih =>
    obtain ⟨hmem, ha, hb⟩ := ih
    simp only [blockSteps_succ, blockStep, hmem, ha, hb, and_self]

theorem blockWork_ext {u v : BlockWork} (hmem : u.memory = v.memory) (hres : u.results = v.results) (ha : u.a = v.a)
    (hb : u.b = v.b) : u = v := by
  cases u
  cases v
  simp_all

/-- A block writes every word of `results` and reads none (R127). -/
theorem blockRun_of_results (w : BlockWork) (results : Words) : blockRun { w with results } = blockRun w := by
  rw [blockRun_eq, blockRun_eq]
  obtain ⟨hmem, ha, hb⟩ := blockSteps_of_results 256 w results
  refine blockWork_ext hmem (words_ext fun i => ?_) ha hb
  obtain ⟨-, -, hb_i⟩ := blockSteps_of_results (i.val + 1) w results
  rw [blockSteps_results_behind _ _ i i.isLt le_rfl, blockSteps_results_behind _ _ i i.isLt le_rfl, hb_i]

/-- What the block of a SEED leaves, a function of the operands alone (R110). -/
def seedBlock (useSeed : Bool) (material : Words) : BlockWork :=
  blockRun { memory := expandMemory useSeed material zeroWords, results := zeroWords, a := 0, b := 0 + (0 + 1) }

/-- The state after SEED: arrays and accumulators from the operands alone, cursor and `seeded` fixed (R106, R107). -/
theorem seedExpand_eq (useSeed : Bool) (material : Words) (s : State) :
    seedExpand useSeed material s =
      { s with
        memory := (seedBlock useSeed material).memory
        results := (seedBlock useSeed material).results
        accA := (seedBlock useSeed material).a
        accB := (seedBlock useSeed material).b
        accC := 1
        cursor := 256
        seeded := true } := by
  have hrun : blockRun (blockPrologue
      { s with memory := expandMemory useSeed material s.memory, accA := 0, accB := 0, accC := 0 }) =
      seedBlock useSeed material := by
    simp only [blockPrologue, seedBlock, expandMemory_of_memory useSeed material s.memory zeroWords]
    exact blockRun_of_results
      { memory := expandMemory useSeed material zeroWords, results := zeroWords, a := 0, b := 0 + (0 + 1) } s.results
  simp only [seedExpand, block, hrun, markSeeded]
  rfl

/-! ### What reset leaves unobservable (R32) -/

theorem sameButResetContents_refl {o : Outcome} (h : ∀ r, o ≠ .refused r) : SameButResetContents o o := by
  cases o with
  | next s => exact ⟨rfl, rfl, rfl, rfl, rfl, fun _ => rfl⟩
  | fault r => rfl
  | refused r => exact h r rfl

theorem step_sameButResetContents_refl (s : State) : SameButResetContents (step s) (step s) :=
  sameButResetContents_refl (step_not_refused s)

section
variable {s t : State} (h : SameButResetContents (.next s) (.next t))
include h

theorem raiseFault_sameButResetContents (kind : FaultKind) :
    SameButResetContents (.next (raiseFault kind s)) (.next (raiseFault kind t)) := by
  obtain ⟨hout, -, hseeded, hconfig, hpending, heq⟩ := h
  exact ⟨hout, rfl, hseeded, hconfig, hpending, fun hs => congrArg (raiseFault kind) (heq hs)⟩

theorem withPending_sameButResetContents (requests : List Request) :
    SameButResetContents (.next { s with pending := requests }) (.next { t with pending := requests }) := by
  obtain ⟨hout, hfault, hseeded, hconfig, -, heq⟩ := h
  exact ⟨hout, hfault, hseeded, hconfig, rfl, fun hs => by rw [heq hs]⟩

/-- SEED takes states that differ in what reset has written to one state (R110). -/
theorem seedExpand_eq_of_sameButResetContents (useSeed : Bool) (material : Words) :
    seedExpand useSeed material s = seedExpand useSeed material t := by
  obtain ⟨hout, hfault, -, hconfig, hpending, -⟩ := h
  simp only [seedExpand_eq, hout, hfault, hconfig, hpending]

/-- Before a SEED, NEXT and GEN record a fault that does not depend on the contents, and SEED overwrites them. -/
theorem exec_sameButResetContents (hf : s.fault = none) (hs : s.seeded = false) (i : Instr) :
    SameButResetContents (exec i s) (exec i t) := by
  have ⟨_, hfault, hseeded, hconfig, _, _⟩ := h
  have hf' : t.fault = none := hfault.symm.trans hf
  have hs' : t.seeded = false := hseeded.symm.trans hs
  cases i with
  | next =>
    simp only [exec, execNext_unseeded hf hs, execNext_unseeded hf' hs']
    exact raiseFault_sameButResetContents h _
  | seed useSeed material =>
    simp only [exec, execSeed_live hf, execSeed_live hf', seedExpand_eq_of_sameButResetContents h]
    exact sameButResetContents_refl (by simp)
  | gen =>
    cases he : s.config.exposeGenerate with
    | false =>
      simp only [exec, execGen_hidden hf he, execGen_hidden hf' (hconfig ▸ he)]
      exact raiseFault_sameButResetContents h _
    | true =>
      simp only [exec, execGen_unseeded hf he hs, execGen_unseeded hf' (hconfig ▸ he) hs']
      exact raiseFault_sameButResetContents h _

theorem step_sameButResetContents : SameButResetContents (step s) (step t) := by
  have ⟨_, hfault, _, hconfig, hpending, heq⟩ := h
  by_cases hs : s.seeded = true
  · rw [heq hs]
    exact step_sameButResetContents_refl t
  rw [Bool.not_eq_true] at hs
  obtain ⟨kind, hf, e⟩ | ⟨hf, hp, e⟩ | ⟨r, rest, hf, hp, hr, e⟩ | ⟨r, rest, _, hf, hp, hr, hd, e⟩ |
    ⟨r, rest, i, hf, hp, hr, hd, e⟩ := step_cases s <;> rw [e] <;> rw [hfault] at hf
  · rw [step_stuck hf]
    exact rfl
  all_goals rw [hpending] at hp
  · rwa [step_idle hf hp]
  · rw [step_race hf hp hr]
    exact raiseFault_sameButResetContents (withPending_sameButResetContents h rest) _
  all_goals rw [hconfig] at hd
  · rw [step_reserved hf hp hr hd]
    exact raiseFault_sameButResetContents (withPending_sameButResetContents h rest) _
  · rw [step_command hf hp hr hd]
    exact exec_sameButResetContents (withPending_sameButResetContents h rest) (hfault.trans hf) hs i

end

theorem runSteps_sameButResetContents (k : Nat) {s t : State} (h : SameButResetContents (.next s) (.next t)) :
    SameButResetContents (runSteps k s) (runSteps k t) := by
  induction k generalizing s t with
  | zero => exact h
  | succ k ih =>
    have hstep := step_sameButResetContents h
    cases hs : step s <;> cases ht : step t <;> rw [hs, ht] at hstep
    case next.next s' t' =>
      rw [runSteps_succ_next hs, runSteps_succ_next ht]
      exact ih hstep
    case fault.fault r r' =>
      rw [runSteps_succ_fault hs, runSteps_succ_fault ht]
      exact hstep
    all_goals exact hstep.elim

theorem launch_sameButResetContents (cfg : Config) (draw draw' : ResetContents) :
    SameButResetContents (.next (State.launch cfg draw)) (.next (State.launch cfg draw')) :=
  ⟨rfl, rfl, rfl, rfl, rfl, fun hs => by simp at hs⟩

/-- Settles O44: two launches differ only in what reset has drawn, and every step keeps that. -/
theorem resetContentsAreUnobservable : Obligations.ResetContentsAreUnobservable := by
  intro cfg draw draw' requests k
  exact ⟨⟨rfl, rfl, rfl, rfl, rfl, rfl, rfl, rfl⟩, runSteps_sameButResetContents k
    (withPending_sameButResetContents (launch_sameButResetContents cfg draw draw') requests)⟩

end Sys2Proof.Machine

/-! PROOFS. Scope: the memory rules: the byte order outside the core (R47), a word as bytes (D13), the indices that
reach memory (R43 to R45, R132), and the command a step runs (R52). -/

namespace Sys2Proof.Machine

/-! ### The same state with another byte order (R47) -/

@[simp] theorem mapNext_next (f : State → State) (s : State) : mapNext f (.next s) = .next (f s) := rfl
@[simp] theorem mapNext_fault (f : State → State) (r : Fault) : mapNext f (.fault r) = .fault r := rfl
@[simp] theorem mapNext_refused (f : State → State) (r : Refusal) : mapNext f (.refused r) = .refused r := rfl

section
variable (order : ByteOrder) (s : State)

@[simp] theorem withByteOrder_memory : (s.withByteOrder order).memory = s.memory := rfl
@[simp] theorem withByteOrder_results : (s.withByteOrder order).results = s.results := rfl
@[simp] theorem withByteOrder_accA : (s.withByteOrder order).accA = s.accA := rfl
@[simp] theorem withByteOrder_accB : (s.withByteOrder order).accB = s.accB := rfl
@[simp] theorem withByteOrder_accC : (s.withByteOrder order).accC = s.accC := rfl
@[simp] theorem withByteOrder_cursor : (s.withByteOrder order).cursor = s.cursor := rfl
@[simp] theorem withByteOrder_seeded : (s.withByteOrder order).seeded = s.seeded := rfl
@[simp] theorem withByteOrder_fault : (s.withByteOrder order).fault = s.fault := rfl
@[simp] theorem withByteOrder_exposeGenerate :
    (s.withByteOrder order).config.exposeGenerate = s.config.exposeGenerate := rfl
@[simp] theorem withByteOrder_pending : (s.withByteOrder order).pending = s.pending := rfl
@[simp] theorem withByteOrder_output : (s.withByteOrder order).output = s.output := rfl

/-- The decoder reads no byte order. -/
theorem decode_withByteOrder (t : Transaction) :
    decode (s.withByteOrder order).config t = decode s.config t := rfl

theorem withByteOrder_withPending (requests : List Request) :
    { s.withByteOrder order with pending := requests } = { s with pending := requests }.withByteOrder order := rfl

theorem raiseFault_withByteOrder (kind : FaultKind) :
    raiseFault kind (s.withByteOrder order) = (raiseFault kind s).withByteOrder order := rfl

theorem block_withByteOrder : block (s.withByteOrder order) = (block s).withByteOrder order := rfl

theorem seedExpand_withByteOrder (useSeed : Bool) (material : Words) :
    seedExpand useSeed material (s.withByteOrder order) = (seedExpand useSeed material s).withByteOrder order := rfl

theorem serve_withByteOrder : serve (s.withByteOrder order) = (serve s).withByteOrder order := rfl

theorem refill_withByteOrder : refill (s.withByteOrder order) = (refill s).withByteOrder order := by
  by_cases hc : s.cursor = 0
  · rw [refill_of_zero hc, refill_of_zero (s := s.withByteOrder order) hc]
    rfl
  · rw [refill_of_ne_zero hc, refill_of_ne_zero (s := s.withByteOrder order) hc]

theorem mapNext_unlessFaulted (effect : Outcome) :
    mapNext (State.withByteOrder order) (unlessFaulted s effect) =
      unlessFaulted (s.withByteOrder order) (mapNext (State.withByteOrder order) effect) := by
  obtain ⟨kind, hf⟩ | hf : (∃ kind, s.fault = some kind) ∨ s.fault = none := by
    cases s.fault <;> simp
  · rw [unlessFaulted_stuck hf, unlessFaulted_stuck (s := s.withByteOrder order) hf, mapNext_fault]
  · rw [unlessFaulted_live hf, unlessFaulted_live (s := s.withByteOrder order) hf]

theorem mapNext_requireSeeded (cmd : Byte) (effect : Outcome) :
    mapNext (State.withByteOrder order) (requireSeeded cmd s effect) =
      requireSeeded cmd (s.withByteOrder order) (mapNext (State.withByteOrder order) effect) := by
  cases hs : s.seeded with
  | true => rw [requireSeeded_seeded hs, requireSeeded_seeded (s := s.withByteOrder order) hs]
  | false =>
    rw [requireSeeded_unseeded hs, requireSeeded_unseeded (s := s.withByteOrder order) hs, raiseFault_withByteOrder,
      mapNext_next]

/-- Every command does under another byte order what it does, with that byte order in its answer. -/
theorem exec_withByteOrder (i : Instr) :
    exec i (s.withByteOrder order) = mapNext (State.withByteOrder order) (exec i s) := by
  cases i with
  | next =>
    simp only [exec, execNext, mapNext_unlessFaulted, mapNext_requireSeeded, apply_ite (mapNext _), mapNext_next,
      withByteOrder_cursor, raiseFault_withByteOrder, refill_withByteOrder, serve_withByteOrder]
  | seed useSeed material =>
    simp only [exec, execSeed, mapNext_unlessFaulted, mapNext_next, seedExpand_withByteOrder]
  | gen =>
    by_cases he : s.config.exposeGenerate = true
    · simp [exec, execGen, he, mapNext_unlessFaulted, mapNext_requireSeeded, block_withByteOrder]
    · simp [exec, execGen, he, mapNext_unlessFaulted, raiseFault_withByteOrder]

/-- A step commutes with the change of byte order, whatever it answers. -/
theorem step_withByteOrder : step (s.withByteOrder order) = mapNext (State.withByteOrder order) (step s) := by
  obtain ⟨kind, hf, e⟩ | ⟨hf, hp, e⟩ | ⟨r, rest, hf, hp, hr, e⟩ | ⟨r, rest, _, hf, hp, hr, hd, e⟩ |
    ⟨r, rest, i, hf, hp, hr, hd, e⟩ := step_cases s <;> rw [e]
  · exact step_stuck hf
  · exact step_idle hf hp
  · exact step_race hf hp hr
  · exact step_reserved hf hp hr ((decode_withByteOrder order s _).trans hd)
  · rw [step_command (s := s.withByteOrder order) hf hp hr ((decode_withByteOrder order s _).trans hd),
      withByteOrder_withPending, exec_withByteOrder]

end

/-- Settles O42, by induction on the number of steps: each step commutes with the change of byte order. -/
theorem byteOrderChangesNothing : Obligations.ByteOrderChangesNothing := by
  intro k s order
  induction k generalizing s with
  | zero => rfl
  | succ k ih =>
    have hstep := step_withByteOrder order s
    cases h : step s with
    | next t =>
      rw [h, mapNext_next] at hstep
      rw [runSteps_succ_next h, runSteps_succ_next hstep, ih]
    | fault r =>
      rw [h, mapNext_fault] at hstep
      rw [runSteps_succ_fault h, runSteps_succ_fault hstep, mapNext_fault]
    | refused r => exact absurd h (step_not_refused s r)

end Sys2Proof.Machine

namespace Sys2Proof

/-! ### Words as bytes (R47, R67) -/

/-- Bit i of the word of bytes given least significant first is bit i mod 8 of byte i / 8 (D13). -/
theorem getLsbD_wordOfLittle (bs : List Byte) {i : Nat} (hi : i < 64) :
    (wordOfLittle bs).getLsbD i = (bs.getD (i / 8) 0).getLsbD (i % 8) := by
  induction bs generalizing i with
  | nil => simp [wordOfLittle]
  | cons b bs ih =>
    by_cases h : i < 8
    · simp [wordOfLittle, hi, h, Nat.div_eq_of_lt h, Nat.mod_eq_of_lt h]
    · have hdiv : i / 8 = (i - 8) / 8 + 1 := by omega
      have hmod : i % 8 = (i - 8) % 8 := by omega
      have hb : b.getLsbD i = false := BitVec.getLsbD_of_ge b i (by omega)
      rw [hdiv, hmod, List.getD_cons_succ, ← ih (by omega)]
      simp [wordOfLittle, -BitVec.getLsbD_eq_getElem, hi, h, hb]

/-- The eight bytes of a word, least significant first, give the word back. -/
theorem wordOfLittle_wordBytes (w : Word) : wordOfLittle ((List.range 8).map (wordByte w)) = w := by
  apply BitVec.eq_of_getLsbD_eq
  intro i hi
  have hbyte : ((List.range 8).map (wordByte w)).getD (i / 8) 0 = wordByte w (i / 8) := by
    have : i / 8 < 8 := by omega
    simp [List.getD, this]
  have hmod : i % 8 < 8 := by omega
  rw [getLsbD_wordOfLittle _ hi, hbyte, wordByte, BitVec.getLsbD_extractLsb', decide_eq_true hmod, Bool.true_and,
    Nat.div_add_mod]

@[simp] theorem length_bytesOfWord (order : ByteOrder) (w : Word) : (bytesOfWord order w).length = 8 := by
  cases order <;> simp [bytesOfWord]

/-- R66, D13: a word's transport bytes give the word back. -/
@[simp] theorem wordOfBytes_bytesOfWord (order : ByteOrder) (w : Word) :
    wordOfBytes order (bytesOfWord order w) = w := by
  cases order with
  | little => exact wordOfLittle_wordBytes w
  | big => rw [wordOfBytes, bytesOfWord, List.reverse_reverse, wordOfLittle_wordBytes]

/-- Settles O7, by the round trip of the little-endian bytes: the big-endian ones are those reversed by definition. -/
theorem wordBytesRoundTrip : Obligations.WordBytesRoundTrip := fun w =>
  ⟨fun order => ⟨length_bytesOfWord order w, wordOfBytes_bytesOfWord order w⟩, rfl⟩

end Sys2Proof

namespace Sys2Proof.Machine

/-! ### The second cursor of a step (R45) -/

theorem ahead_val_of_lt {i : Index} (h : i.val < 128) : (ahead i).val = i.val + 128 := by
  rw [ahead_val]
  omega

theorem ahead_val_of_ge {i : Index} (h : 128 ≤ i.val) : (ahead i).val = i.val - 128 := by
  rw [ahead_val]
  omega

/-- Settles O21: in the first half of a block m2 lies at or after the step, in the second half behind it. -/
theorem secondCursorReads : Obligations.SecondCursorReads := by
  intro w i
  constructor
  · intro h
    have hval := ahead_val_of_lt h
    exact ⟨hval, blockSteps_memory_ahead i.val w (ahead i) (by omega)⟩
  · intro h
    have hval := ahead_val_of_ge h
    refine ⟨hval, ?_⟩
    rw [blockSteps_memory_behind i.val w (ahead i) (by omega) (by omega), hval]

/-! ### The bits INDEX reads (R43, R44) -/

/-- INDEX(v) selects floor(v / 8) mod 256 (R43). -/
theorem indexOf_eq_div (v : Word) : indexOf v = Fin.ofNat 256 (v.toNat / 8) := by
  rw [indexOf, BitVec.toNat_ushiftRight, Nat.shiftRight_eq_div_pow]

/-- INDEX(v) selects by the field v[10:3] (R44). -/
theorem indexOf_val_eq_field (v : Word) : (indexOf v).val = (v.extractLsb' 3 8).toNat := by
  rw [indexOf_val, BitVec.extractLsb'_toNat, BitVec.toNat_ushiftRight]

/-- INDEX(y >> 8) selects by the field y[18:11] (R44). -/
theorem indexOf_shift_val_eq_field (y : Word) : (indexOf (y >>> 8)).val = (y.extractLsb' 11 8).toNat := by
  rw [indexOf_val, BitVec.extractLsb'_toNat, ← BitVec.shiftRight_add, BitVec.toNat_ushiftRight]

/-- R44: no bit outside v[10:3] affects the selected index. -/
theorem indexOf_congr {v v' : Word} (h : ∀ i, 3 ≤ i → i ≤ 10 → v.getLsbD i = v'.getLsbD i) :
    indexOf v = indexOf v' := by
  have hfield : v.extractLsb' 3 8 = v'.extractLsb' 3 8 := by
    apply BitVec.eq_of_getLsbD_eq
    intro i hi
    rw [BitVec.getLsbD_extractLsb', BitVec.getLsbD_extractLsb', h (3 + i) (by omega) (by omega)]
  apply Fin.ext
  rw [indexOf_val_eq_field, indexOf_val_eq_field, hfield]

/-- Settles O26, by the field each form of INDEX reads; the four examples are evaluated. -/
theorem indexSelectsBits : Obligations.IndexSelectsBits :=
  ⟨fun memory v => congrArg (readWord memory) (indexOf_eq_div v), indexOf_val_eq_field, indexOf_shift_val_eq_field,
    fun _ _ => indexOf_congr, by decide, by decide, by decide, by decide⟩

/-! ### A command as one step (R52) -/

/-- Settles O8, by the law of a step that takes a command. -/
theorem stepRunsTheDecodedCommand : Obligations.StepRunsTheDecodedCommand :=
  fun _ _ _ _ hlive hpending hdecode => step_command hlive hpending rfl hdecode

end Sys2Proof.Machine

/-! PROOFS. Scope: the encoding of commands (30_encoding.md): the code table (R62, R70), the byte-serial form of a
command (R67), and the delivery of a program sent as bytes (R47). -/

namespace Sys2Proof

/-! ### The rows of the code table (R62, R70) -/

theorem decode_eq_next_iff {cfg : Config} {t : Transaction} : decode cfg t = .ok .next ↔ t.cmd = cmdNext := by
  refine ⟨fun h => ?_, decode_next⟩
  obtain ⟨hc, -⟩ | ⟨_, -, hi⟩ | ⟨-, -, hi⟩ := decode_eq_ok h
  · exact hc
  · cases hi
  · cases hi

theorem decode_eq_seed_iff {cfg : Config} {t : Transaction} {u : Bool} :
    decode cfg t = .ok (.seed u t.operand) ↔ t.cmd = cmdSeed u := by
  refine ⟨fun h => ?_, decode_seed⟩
  obtain ⟨-, hi⟩ | ⟨_, hc, hi⟩ | ⟨-, -, hi⟩ := decode_eq_ok h
  · cases hi
  · cases hi
    exact hc
  · cases hi

theorem decode_eq_gen_iff {cfg : Config} {t : Transaction} :
    decode cfg t = .ok .gen ↔ t.cmd = cmdGen ∧ cfg.exposeGenerate = true := by
  refine ⟨fun h => ?_, fun ⟨hc, he⟩ => decode_gen hc he⟩
  obtain ⟨-, hi⟩ | ⟨_, -, hi⟩ | ⟨hc, he, -⟩ := decode_eq_ok h
  · cases hi
  · cases hi
  · exact ⟨hc, he⟩

/-- A code is Reserved exactly when no row of the table decodes it (R62). -/
theorem decode_eq_reserved_iff {cfg : Config} {t : Transaction} :
    decode cfg t = .error (.reserved t.cmd) ↔
      t.cmd ≠ cmdNext ∧ (∀ u, t.cmd ≠ cmdSeed u) ∧ ¬(t.cmd = cmdGen ∧ cfg.exposeGenerate = true) := by
  constructor
  · intro h
    refine ⟨fun hc => ?_, fun u hc => ?_, fun ⟨hc, he⟩ => ?_⟩
    · simp [decode_next hc] at h
    · simp [decode_seed hc] at h
    · simp [decode_gen hc he] at h
  · rintro ⟨hnext, hseed, hgen⟩
    cases h : decode cfg t with
    | error e => rw [decode_eq_error h]
    | ok i =>
      obtain ⟨hc, -⟩ | ⟨u, hc, -⟩ | ⟨hc, he, -⟩ := decode_eq_ok h
      · exact absurd hc hnext
      · exact absurd hc (hseed u)
      · exact absurd ⟨hc, he⟩ hgen

/-- Where GEN is not exposed its code is Reserved (R62). -/
theorem decode_gen_hidden {cfg : Config} {t : Transaction} (h : t.cmd = cmdGen) (he : cfg.exposeGenerate = false) :
    decode cfg t = .error (.reserved cmdGen) := by
  simp [decode, h, cmdGen, he]

/-- Mask 0xFB leaves out U, so the SEED row matches its code for either flag (R63, R70). -/
theorem matchesSeed_iff (cmd : Byte) : cmd &&& 0xFB = 0x01 ↔ cmd = cmdSeed (cmd.getLsbD 2) := by
  revert cmd; decide

theorem cmdSeed_getLsbD_two (u : Bool) : (cmdSeed u).getLsbD 2 = u := cmdUseSeed_cmdOf u _

theorem matchesSeed_iff_exists (cmd : Byte) : cmd &&& 0xFB = 0x01 ↔ ∃ u, cmd = cmdSeed u := by
  rw [matchesSeed_iff]
  refine ⟨fun h => ⟨_, h⟩, ?_⟩
  rintro ⟨u, rfl⟩
  rw [cmdSeed_getLsbD_two]

/-- Settles O2, by the decoder's row for each command and the codes each row's match and mask select. -/
theorem codeTableMatchesAndMasks : Obligations.CodeTableMatchesAndMasks := by
  intro cfg t
  have hfull : t.cmd &&& 0xFF = t.cmd := BitVec.and_allOnes
  rw [hfull]
  refine ⟨decode_eq_next_iff.symm, ?_, decode_eq_gen_iff.symm, ?_⟩
  · rw [matchesSeed_iff, decode_eq_seed_iff]
  · rw [decode_eq_reserved_iff, matchesSeed_iff_exists, not_exists]
    rfl

/-- Settles O3: each code is written out as the code of its command, and 0x06 is no command's. -/
theorem sampleCodesDecode : Obligations.SampleCodesDecode :=
  ⟨decode_next rfl, decode_seed rfl, decode_seed rfl, decode_gen rfl rfl, decode_gen_hidden rfl rfl,
    decode_eq_reserved_iff.mpr (by decide)⟩

/-! ### A word and an operand vector from their bytes (D13, R67) -/

/-- Eight bytes, least significant first, are the bytes of the word they give. -/
theorem wordBytes_wordOfLittle {bs : List Byte} (h : bs.length = 8) :
    (List.range 8).map (wordByte (wordOfLittle bs)) = bs := by
  refine List.ext_getElem (by simp [h]) fun k _ hk => BitVec.eq_of_getLsbD_eq fun i hi => ?_
  have hdiv : (8 * k + i) / 8 = k := by omega
  have hmod : (8 * k + i) % 8 = i := by omega
  rw [List.getElem_map, List.getElem_range, wordByte, BitVec.getLsbD_extractLsb', decide_eq_true hi, Bool.true_and,
    getLsbD_wordOfLittle bs (by omega), hdiv, hmod, List.getD_eq_getElem bs 0 hk]

theorem bytesOfWord_wordOfBytes (order : ByteOrder) {bs : List Byte} (h : bs.length = 8) :
    bytesOfWord order (wordOfBytes order bs) = bs := by
  cases order with
  | little => exact wordBytes_wordOfLittle h
  | big =>
    rw [bytesOfWord, wordOfBytes, wordBytes_wordOfLittle (by rw [List.length_reverse, h]), List.reverse_reverse]

/-- Piece k of pieces of one length put end to end. -/
theorem take_drop_flatMap_of_length {α β : Type} {f : α → List β} {n : Nat} (hf : ∀ a, (f a).length = n)
    (l : List α) (rest : List β) {k : Nat} (hk : k < l.length) :
    ((l.flatMap f ++ rest).drop (n * k)).take n = f l[k] := by
  induction l generalizing k with
  | nil => simp at hk
  | cons a l ih =>
    rw [List.flatMap_cons, List.append_assoc]
    cases k with
    | zero => simp [← hf a]
    | succ k =>
      have hskip : n * (k + 1) = (f a).length + n * k := by rw [hf a, Nat.mul_succ, Nat.add_comm]
      rw [hskip, List.drop_length_add_append, ih (by simpa using hk), List.getElem_cons_succ]

/-- A list cut into pieces of length n, put end to end again. -/
theorem flatMap_range_take_drop {β : Type} (bs : List β) (n m : Nat) :
    (List.range m).flatMap (fun k => (bs.drop (n * k)).take n) = bs.take (n * m) := by
  induction m with
  | zero => simp
  | succ m ih => simp [List.range_succ, ih, Nat.mul_succ, List.take_add]

@[simp] theorem length_bytesOfWords (order : ByteOrder) (v : Words) : (bytesOfWords order v).length = 2048 := by
  simp only [bytesOfWords, List.length_flatMap, length_bytesOfWord, List.map_const', Vector.length_toList,
    List.sum_replicate_nat, Nat.reduceMul]

/-- The bytes of an operand vector, and any bytes after them, give the vector back (R67). -/
@[simp] theorem wordsOfBytes_bytesOfWords_append (order : ByteOrder) (v : Words) (rest : List Byte) :
    wordsOfBytes order (bytesOfWords order v ++ rest) = v := by
  apply Vector.ext
  intro k hk
  have hpiece := take_drop_flatMap_of_length (length_bytesOfWord order) v.toList rest (k := k) (by simpa using hk)
  rw [wordsOfBytes, Vector.getElem_ofFn, bytesOfWords, hpiece, wordOfBytes_bytesOfWord, Vector.getElem_toList]

/-- The vector that 2048 bytes give has those bytes (R67). -/
theorem bytesOfWords_wordsOfBytes (order : ByteOrder) {bs : List Byte} (h : 2048 ≤ bs.length) :
    bytesOfWords order (wordsOfBytes order bs) = bs.take 2048 := by
  have hword (k : Fin 256) : bytesOfWord order (wordOfBytes order ((bs.drop (8 * k.val)).take 8)) =
      (bs.drop (8 * k.val)).take 8 :=
    bytesOfWord_wordOfBytes order (by rw [List.length_take, List.length_drop]; omega)
  calc bytesOfWords order (wordsOfBytes order bs)
      = (List.finRange 256).flatMap (fun k => (bs.drop (8 * k.val)).take 8) := by
        simp only [bytesOfWords, wordsOfBytes, Vector.toList_ofFn, List.ofFn_eq_map, List.flatMap_map, hword]
    _ = (List.range 256).flatMap (fun k => (bs.drop (8 * k)).take 8) := by
        rw [← List.map_coe_finRange_eq_range, List.flatMap_map]
    _ = bs.take 2048 := flatMap_range_take_drop bs 8 256

/-! ### A transaction from its bytes (R67) -/

theorem carriesOperand_cmdNext : carriesOperand cmdNext = false := by decide

theorem carriesOperand_cmdSeed (u : Bool) : carriesOperand (cmdSeed u) = true := by revert u; decide

theorem carriesOperand_cmdGen : carriesOperand cmdGen = false := by decide

/-- What a byte stream can say of a transaction: its operand lines are zeros unless its code carries an operand
vector (entry 11). -/
def Transaction.transportable (t : Transaction) : Prop := carriesOperand t.cmd = false → t.operand = zeroWords

theorem parse_bytesOfTransaction_append (order : ByteOrder) {t : Transaction} (h : t.transportable)
    (rest : List Byte) : parse order (bytesOfTransaction order t ++ rest) = .ok (t, rest) := by
  obtain ⟨cmd, operand⟩ := t
  cases hc : carriesOperand cmd with
  | true => simp [parse, bytesOfTransaction, hc]
  | false =>
    obtain rfl : operand = zeroWords := h hc
    simp [parse, bytesOfTransaction, hc]

/-- Everything `parse` can answer with a transaction: one whose bytes begin the stream. -/
theorem parse_eq_ok {order : ByteOrder} {bytes rest : List Byte} {t : Transaction}
    (h : parse order bytes = .ok (t, rest)) : t.transportable ∧ bytes = bytesOfTransaction order t ++ rest := by
  cases bytes with
  | nil => cases h
  | cons cmd bytes =>
    cases hc : carriesOperand cmd with
    | true =>
      by_cases hlen : bytes.length < 2048
      · simp [parse, hc, hlen] at h
      · obtain ⟨rfl, rfl⟩ : { cmd, operand := wordsOfBytes order bytes } = t ∧ bytes.drop 2048 = rest := by
          simpa [parse, hc, hlen] using h
        refine ⟨fun hc' => ?_, ?_⟩
        · simp [hc] at hc'
        · simp [bytesOfTransaction, hc, bytesOfWords_wordsOfBytes order (Nat.le_of_not_lt hlen)]
    | false =>
      obtain ⟨rfl, rfl⟩ : { cmd, operand := zeroWords } = t ∧ bytes = rest := by
        simpa [parse, hc] using h
      exact ⟨fun _ => rfl, by simp [bytesOfTransaction, hc]⟩

/-! ### A command from its transaction and from its bytes -/

/-- Only SEED's transaction sets operand lines (R65). -/
theorem encode_transportable (i : Instr) : (encode i).transportable := by
  cases i with
  | next => exact fun _ => rfl
  | seed useSeed material =>
    intro h
    simp [encode, carriesOperand_cmdSeed] at h
  | gen => exact fun _ => rfl

theorem decode_encode {cfg : Config} {i : Instr} (h : i.wellFormed cfg = true) : decode cfg (encode i) = .ok i := by
  cases i with
  | next => exact Laws.RoundTrip.next cfg h
  | seed useSeed material => exact Laws.RoundTrip.seed useSeed material cfg h
  | gen => exact Laws.RoundTrip.gen cfg h

theorem wellFormed_of_decode {cfg : Config} {t : Transaction} {i : Instr} (h : decode cfg t = .ok i) :
    i.wellFormed cfg = true := by
  obtain ⟨-, rfl⟩ | ⟨_, -, rfl⟩ | ⟨-, he, rfl⟩ := decode_eq_ok h
  · rfl
  · rfl
  · exact he

/-- A command has one transaction that bytes can give. -/
theorem encode_of_decode {cfg : Config} {t : Transaction} {i : Instr} (ht : t.transportable)
    (h : decode cfg t = .ok i) : encode i = t := by
  obtain ⟨cmd, operand⟩ := t
  obtain ⟨hc, rfl⟩ | ⟨_, hc, rfl⟩ | ⟨hc, -, rfl⟩ := decode_eq_ok h <;> obtain rfl := hc
  · rw [encode, show operand = zeroWords from ht carriesOperand_cmdNext]
  · rfl
  · rw [encode, show operand = zeroWords from ht carriesOperand_cmdGen]

/-- Settles O4: the command's bytes give its transaction and the bytes after it, and the transaction decodes to it. -/
theorem decodeEncodeBytes : Obligations.DecodeEncodeBytes := by
  intro cfg i rest h
  rw [encodeBytes, decodeBytes, parse_bytesOfTransaction_append _ (encode_transportable i)]
  simp only [decode_encode h]

/-- Everything `decodeBytes` can answer with a command: `parse` and then `decode` answered. -/
theorem decodeBytes_eq_ok {cfg : Config} {bytes rest : List Byte} {i : Instr}
    (h : decodeBytes cfg bytes = .ok (i, rest)) :
    ∃ t, parse cfg.wordByteOrder bytes = .ok (t, rest) ∧ decode cfg t = .ok i := by
  unfold decodeBytes at h
  split at h
  · cases h
  · split at h
    · cases h
    · cases h
      exact ⟨_, ‹_›, ‹_›⟩

/-- Settles O5: the bytes are those of the parsed transaction, and that transaction is the command's own. -/
theorem decodedBytesAreTheEncoding : Obligations.DecodedBytesAreTheEncoding := by
  intro cfg bytes rest i h
  obtain ⟨t, hparse, hdecode⟩ := decodeBytes_eq_ok h
  obtain ⟨ht, hbytes⟩ := parse_eq_ok hparse
  refine ⟨wellFormed_of_decode hdecode, ?_⟩
  rw [encodeBytes, encode_of_decode ht hdecode, hbytes]

end Sys2Proof

namespace Sys2Proof.Machine

/-! ### A program from its bytes (R47, R67) -/

/-- A transaction parsed with one unit of fuel goes before those of the bytes after it. -/
theorem parseAll_of_parse {order : ByteOrder} {fuel : Nat} {bytes rest : List Byte} {t : Transaction}
    {ts : List Transaction} (h : parse order bytes = .ok (t, rest)) (hrest : parseAll order fuel rest = .ok ts) :
    parseAll order (fuel + 1) bytes = .ok (t :: ts) := by
  cases bytes with
  | nil => cases h
  | cons b bytes => simp only [parseAll, h, hrest]

/-- Transactions sent one after another are parsed in order, given a unit of fuel for each byte. -/
theorem parseAll_flatMap_bytesOfTransaction (order : ByteOrder) {ts : List Transaction}
    (h : ∀ t ∈ ts, t.transportable) {fuel : Nat} (hfuel : (ts.flatMap (bytesOfTransaction order)).length ≤ fuel) :
    parseAll order fuel (ts.flatMap (bytesOfTransaction order)) = .ok ts := by
  induction ts generalizing fuel with
  | nil => simp [parseAll]
  | cons t ts ih =>
    obtain ⟨ht, hts⟩ := List.forall_mem_cons.mp h
    have hpos : 0 < (bytesOfTransaction order t).length := Nat.succ_pos _
    rw [List.flatMap_cons, List.length_append] at hfuel
    cases fuel with
    | zero => omega
    | succ fuel =>
      rw [List.flatMap_cons]
      exact parseAll_of_parse (parse_bytesOfTransaction_append order ht _) (ih hts (by omega))

/-- Settles O6: the stream is parsed into the commands' transactions, which join the pending requests. -/
theorem bytesDeliverTheProgram : Obligations.BytesDeliverTheProgram := by
  intro s program _
  have hbytes : program.flatMap (encodeBytes s.config) =
      (program.map encode).flatMap (bytesOfTransaction s.config.wordByteOrder) := by
    rw [List.flatMap_map]
    rfl
  have hts : ∀ t ∈ program.map encode, t.transportable := by
    simp [encode_transportable]
  rw [receiveBytes, hbytes, parseAll_flatMap_bytesOfTransaction _ hts le_rfl]
  simp only [issueCommands, List.map_map]
  rfl

/-! ### Reserved codes and table words as steps -/

/-- Settles O1: the rows of the table by their codes, and the law of a step that takes a Reserved code. -/
theorem codesDecodeByTheTable : Obligations.CodesDecodeByTheTable := by
  refine ⟨fun cfg t => ⟨decode_next, decode_seed (u := false), decode_seed (u := true), decode_gen,
    decode_gen_hidden, fun hnext hseed hseed' hgen => ?_⟩, fun s t rest e hlive hpending hdecode => ?_⟩
  · refine decode_eq_reserved_iff.mpr ⟨hnext, fun u => ?_, fun h => hgen h.1⟩
    cases u with
    | false => exact hseed
    | true => exact hseed'
  · exact step_reserved hlive hpending rfl hdecode

/-- Settles O9: the placed request is the oldest, and taking it gives back the state it was placed on. -/
theorem fetchWordRunsNext : Obligations.FetchWordRunsNext := fun s nbits w _ hlive hdecode =>
  step_command (s := s.withFetchWord nbits w) (rest := s.pending) hlive rfl rfl hdecode

end Sys2Proof.Machine

namespace Sys2Proof.Machine

/-! ### MIX as a sequence of rounds and statements (R83, R86) -/

/-- The round of the listing of R81, with n counted from 0 as in `patternRound`. -/
def mixRound (w : Mixer) (n : Fin 8) : Mixer :=
  match n with
  | 0 => mixRound1 w
  | 1 => mixRound2 w
  | 2 => mixRound3 w
  | 3 => mixRound4 w
  | 4 => mixRound5 w
  | 5 => mixRound6 w
  | 6 => mixRound7 w
  | 7 => mixRound8 w

theorem mix_eq_foldl_mixRound (w : Mixer) : mix w = (List.finRange 8).foldl mixRound w := rfl

/-- A round of the listing is the round of the index pattern: compare the eight words one by one. -/
theorem mixerWord_mixRound (w : Mixer) (n : Fin 8) : mixerWord (mixRound w n) = patternRound (mixerWord w) n := by
  funext j
  fin_cases n <;> fin_cases j <;> rfl

/-- Settles O27: `mixerWord` carries each round of the listing to the round of the pattern, hence the fold to the fold. -/
theorem mixFollowsTheRoundPattern : Obligations.MixFollowsTheRoundPattern := by
  intro w
  rw [mix_eq_foldl_mixRound]
  exact (List.foldl_hom mixerWord fun w n => (mixerWord_mixRound w n).symm).symm

/-- Settles O28: every operation of the listing on zeros gives zero. -/
theorem mixFixesZero : Obligations.MixFixesZero := by
  unfold Obligations.MixFixesZero
  decide

/-- A statement of MIX: word `p` becomes `op` of itself and word `q` (R86). -/
def mixStatement (op : Word → Word → Word) (p q : Fin 8) (w : Fin 8 → Word) : Fin 8 → Word :=
  Function.update w p (op (w p) (w q))

theorem patternRound_eq_mixStatements (w : Fin 8 → Word) (n : Fin 8) :
    patternRound w n =
      mixStatement (· + ·) (n + 7) n
        (mixStatement (fun x y => x ^^^ patternShift n y) (n + 5) (n + 7)
          (mixStatement (· - ·) n (n + 4) w)) := rfl

/-- A statement whose two words differ is undone by the statement that undoes its operation. -/
theorem mixStatement_leftInverse {op undo : Word → Word → Word} {p q : Fin 8} (hpq : q ≠ p)
    (hundo : ∀ x y, undo (op x y) y = x) :
    Function.LeftInverse (mixStatement undo p q) (mixStatement op p q) := by
  intro w
  simp [mixStatement, hpq, hundo]

theorem mixStatement_bijective {op undo : Word → Word → Word} {p q : Fin 8} (hpq : q ≠ p)
    (hundo : ∀ x y, undo (op x y) y = x) (hredo : ∀ x y, op (undo x y) y = x) :
    Function.Bijective (mixStatement op p q) :=
  ⟨(mixStatement_leftInverse hpq hundo).injective, (mixStatement_leftInverse hpq hredo).surjective⟩

/-- R86's three rules of undoing: `-=` by `+=`, `^=` by itself, `+=` by `-=`. -/
theorem patternRound_bijective (n : Fin 8) : Function.Bijective fun w => patternRound w n := by
  have hsub : Function.Bijective (mixStatement (· - ·) n (n + 4)) :=
    mixStatement_bijective (undo := (· + ·)) (by simp) sub_add_cancel add_sub_cancel_right
  have hxor_cancel (x y : Word) : x ^^^ patternShift n y ^^^ patternShift n y = x := by
    simp
  have hxor : Function.Bijective (mixStatement (fun x y => x ^^^ patternShift n y) (n + 5) (n + 7)) :=
    mixStatement_bijective (by simp) hxor_cancel hxor_cancel
  have hadd : Function.Bijective (mixStatement (· + ·) (n + 7) n) :=
    mixStatement_bijective (undo := (· - ·)) (by simp) add_sub_cancel_right sub_add_cancel
  exact hadd.comp (hxor.comp hsub)

/-- The eight working words are a sequence of eight words. -/
theorem mixerWord_bijective : Function.Bijective mixerWord := by
  refine ⟨fun w v h => ?_, fun u => ⟨⟨u 0, u 1, u 2, u 3, u 4, u 5, u 6, u 7⟩, ?_⟩⟩
  · have hword (j : Fin 8) : mixerWord w j = mixerWord v j := congrFun h j
    cases w
    cases v
    simp only [Mixer.mk.injEq]
    exact ⟨hword 0, hword 1, hword 2, hword 3, hword 4, hword 5, hword 6, hword 7⟩
  · funext j
    fin_cases j <;> rfl

/-- A round of the listing is a bijection, since `mixerWord` makes it a round of the pattern. -/
theorem mixRound_bijective (n : Fin 8) : Function.Bijective fun w => mixRound w n := by
  have hcomp : (mixerWord ∘ fun w => mixRound w n) = (fun u => patternRound u n) ∘ mixerWord :=
    funext fun w => mixerWord_mixRound w n
  rw [← Function.Bijective.of_comp_iff' mixerWord_bijective, hcomp]
  exact (patternRound_bijective n).comp mixerWord_bijective

/-- A run of bijections is a bijection. -/
theorem foldl_mixRound_bijective (rounds : List (Fin 8)) : Function.Bijective (rounds.foldl mixRound) := by
  induction rounds with
  | nil => exact Function.bijective_id
  | cons n rounds ih => exact ih.comp (mixRound_bijective n)

/-- Settles O29: MIX is a run of rounds, and each of a round's statements can be undone. -/
theorem mixIsABijection : Obligations.MixIsABijection :=
  foldl_mixRound_bijective (List.finRange 8)

end Sys2Proof.Machine

/-! PROOFS. Scope: the Seed Expansion (41_seed.md): what the two passes of SEED write (R103, R104, R108), the corner
cases of the material (R109, R111), and the command as a whole (R110, R112). -/

namespace Sys2Proof.Machine

/-! ### The seed material (R109, R111) -/

@[simp] theorem readWord_zeroWords (i : Index) : readWord zeroWords i = 0 := by
  simp [readWord, zeroWords, Vector.get_eq_getElem]

theorem addGroup_zeroWords (g : Fin 32) (w : Mixer) : addGroup zeroWords g w = w := by
  simp [addGroup]

/-- Settles O34, by induction on the groups: adding a group of zeros leaves the working words as they are. -/
theorem zeroMaterialPassOne : Obligations.ZeroMaterialPassOne := by
  intro material n w
  induction n with
  | zero => rfl
  | succ n ih => simp [pass1_succ, pass1Group, addGroup_zeroWords, ih]

/-- With U = 0 no group of pass 1 reads the material (R109). -/
theorem pass1_fixed_of_material (material material' : Words) (n : Nat) (w : SeedWork) :
    pass1 false material n w = pass1 false material' n w := by
  induction n with
  | zero => rfl
  | succ n ih => simp only [pass1_succ, pass1Group, ih, Bool.false_eq_true, if_false]

theorem seedExpand_fixed_of_material (material material' : Words) (s : State) :
    seedExpand false material s = seedExpand false material' s := by
  have hmem : expandMemory false material s.memory = expandMemory false material' s.memory := by
    rw [expandMemory_fixed, expandMemory_fixed, pass1_fixed_of_material]
  simp only [seedExpand, hmem]

/-- Settles O33: the state SEED with U = 0 answers is the same for every material. -/
theorem fixedSeedIgnoresMaterial : Obligations.FixedSeedIgnoresMaterial := by
  intro s material material'
  simp only [exec, execSeed, seedExpand_fixed_of_material material material']

/-! ### Pass 1, group by group (R103) -/

/-- Group number g of a pass is group g. -/
theorem groupNumber_val (g : Fin 32) : Fin.ofNat 32 g.val = g := Fin.ext (Nat.mod_eq_of_lt g.isLt)

theorem pass1_words_succ (useSeed : Bool) (material : Words) (g : Fin 32) (w : SeedWork) :
    (pass1 useSeed material (g.val + 1) w).words =
      mix (if useSeed = true then addGroup material g (pass1 useSeed material g.val w).words
        else (pass1 useSeed material g.val w).words) := by
  rw [pass1_succ, groupNumber_val, pass1Group]

/-! ### Pass 2, group by group (R104) -/

/-- Group g of pass 2 writes its own eight slots (R108). -/
theorem pass2_memory_same (w : SeedWork) (g : Fin 32) (j : Fin 8) :
    readWord (pass2 (g.val + 1) w).memory (groupIndex g j) = mixerWord (pass2 (g.val + 1) w).words j := by
  rw [pass2_succ, groupNumber_val]
  exact storeGroup_same g _ _ j

/-- Every group of pass 2 but group g leaves the slots of group g. -/
theorem pass2_memory_other {n : Nat} (hn : n < 32) (w : SeedWork) {g : Fin 32} (hg : n ≠ g.val) (j : Fin 8) :
    readWord (pass2 (n + 1) w).memory (groupIndex g j) = readWord (pass2 n w).memory (groupIndex g j) := by
  have hval : (Fin.ofNat 32 n).val = n := Nat.mod_eq_of_lt hn
  have hne : Fin.ofNat 32 n ≠ g := fun e => hg (hval.symm.trans (congrArg Fin.val e))
  exact storeGroup_otherGroup hne _ _ j

/-- A group that pass 2 has not reached is as pass 1 left it. -/
theorem pass2_memory_ahead (w : SeedWork) (g : Fin 32) (j : Fin 8) {n : Nat} (h : n ≤ g.val) :
    readWord (pass2 n w).memory (groupIndex g j) = readWord w.memory (groupIndex g j) := by
  induction n with
  | zero => rfl
  | succ n ih => rw [pass2_memory_other (by omega) w (by omega), ih (by omega)]

/-- A group that pass 2 has rewritten stays to its end. -/
theorem pass2_memory_behind (w : SeedWork) (g : Fin 32) (j : Fin 8) {n : Nat} (h : g.val < n) (hn : n ≤ 32) :
    readWord (pass2 n w).memory (groupIndex g j) = mixerWord (pass2 (g.val + 1) w).words j := by
  induction n, h using Nat.le_induction with
  | base => exact pass2_memory_same w g j
  | succ n h ih => rw [pass2_memory_other (by omega) w (by omega), ih (by omega)]

/-- Settles O35: a group is read before its own turn and rewritten only then. -/
theorem passTwoReadsPassOne : Obligations.PassTwoReadsPassOne :=
  fun w g j _ hn => ⟨pass2_memory_ahead w g j, fun h => pass2_memory_behind w g j h hn⟩

/-- Group g of pass 2 adds the words pass 1 left there, since no earlier group of pass 2 writes them (R104). -/
theorem pass2_words_succ (w : SeedWork) (g : Fin 32) :
    (pass2 (g.val + 1) w).words = mix (addGroup w.memory g (pass2 g.val w).words) := by
  rw [pass2_succ, groupNumber_val, pass2Group,
    addGroup_congr fun j => pass2_memory_ahead w g j (le_refl g.val)]

/-! ### The block a SEED runs (R106) -/

/-- FLAVOUR of step i is the expression of i mod 4 (R121 to R124, R134). -/
theorem flavour_eq_flavourOfStep (i : Nat) (a : Word) : flavour (Fin.ofNat 4 i) a = flavourOfStep i a := by
  have hval : i % 4 = (Fin.ofNat 4 i).val := rfl
  rw [flavourOfStep]
  generalize Fin.ofNat 4 i = k at hval ⊢
  rw [hval]
  fin_cases k <;> rfl

/-- INDEX(y >> 8) selects floor(y / 2048) mod 256 (R44). -/
theorem indexOf_shift_eq_div (y : Word) : indexOf (y >>> 8) = Fin.ofNat 256 (y.toNat / 2048) := by
  rw [indexOf_eq_div, BitVec.toNat_ushiftRight, Nat.shiftRight_eq_div_pow, Nat.div_div_eq_div_mul]

/-- STEP meets the equations of R126. -/
theorem isStep_blockStep (i : Index) (w : BlockWork) : IsStep i w (blockStep i w) := by
  refine ⟨readWord w.memory i, index w.memory (readWord w.memory i) + (blockStep i w).a + w.b,
    rfl, ?_, ?_, rfl, ?_, rfl⟩
  · rw [← flavour_eq_flavourOfStep]
    rfl
  · rw [index, indexOf_eq_div]
  · rw [← indexOf_shift_eq_div]
    rfl

/-- Step number i of a block is STEP(i) on what the steps before it left (R127). -/
theorem isStep_blockSteps (i : Index) (w : BlockWork) :
    IsStep i (blockSteps i.val w) (blockSteps (i.val + 1) w) := by
  have hi : Fin.ofNat 256 i.val = i := Fin.ext (stepIndex_val i.isLt)
  rw [blockSteps_succ, hi]
  exact isStep_blockStep i (blockSteps i.val w)

/-- BLOCK is the chain of its 256 steps from the prologue's values (R125, R127). -/
theorem isBlock_block (s : State) : IsBlock s (block s) := by
  refine ⟨fun n => blockSteps n (blockPrologue s), rfl, fun i => isStep_blockSteps i (blockPrologue s), ?_⟩
  rw [block, blockRun_eq]

/-! ### The command -/

/-- SEED meets the equations of its seven steps; the chains of working words are those of the two passes. -/
theorem isSeedExpansion_seedExpand (useSeed : Bool) (material : Words) (s : State) :
    IsSeedExpansion useSeed material s (seedExpand useSeed material s) := by
  refine ⟨fun n => (pass1 useSeed material n ⟨scrambled, s.memory⟩).words,
    fun n => (pass2 n (pass1 useSeed material 32 ⟨scrambled, s.memory⟩)).words,
    (pass1 useSeed material 32 ⟨scrambled, s.memory⟩).memory, expandMemory useSeed material s.memory, _,
    rfl, fun g => pass1_words_succ useSeed material g _,
    fun g j => pass1_memory_behind useSeed material 32 _ g j g.isLt le_rfl, ?_, ?_, isBlock_block _, rfl⟩
  · rintro rfl
    exact expandMemory_fixed material s.memory
  · rintro rfl
    refine ⟨rfl, pass2_words_succ _, fun g j => ?_⟩
    rw [expandMemory_useSeed]
    exact pass2_memory_behind _ g j g.isLt le_rfl

/-- Settles O30, by the relation of the seven steps for the state a live SEED answers. -/
theorem seedIsTheSeedExpansion : Obligations.SeedIsTheSeedExpansion :=
  fun s useSeed material hlive =>
    ⟨_, execSeed_live hlive useSeed material, isSeedExpansion_seedExpand useSeed material s,
      seedExpand_accC s useSeed material⟩

/-- Settles O31: a live SEED answers its expansion, and `seedExpand_inv` holds acc_b to results[255]. -/
theorem seedAlwaysCompletes : Obligations.SeedAlwaysCompletes := by
  intro s useSeed material hlive
  obtain ⟨-, hacc⟩ := seedExpand_inv useSeed material s
  have hseeded := seedExpand_seeded s useSeed material
  exact ⟨_, execSeed_live hlive useSeed material, hlive, hseeded, seedExpand_cursor s useSeed material,
    seedExpand_accC s useSeed material, hacc hseeded, seedExpand_output s useSeed material⟩

/-- SEED reads nothing of the state it overwrites (R110). -/
theorem seedExpand_sameGenerator (useSeed : Bool) (material : Words) (s s' : State) :
    SameGenerator (seedExpand useSeed material s) (seedExpand useSeed material s') := by
  rw [seedExpand_eq, seedExpand_eq]
  exact ⟨rfl, rfl, rfl, rfl, rfl, rfl, rfl⟩

/-- A second SEED with the same operands changes nothing (R50, R110). -/
theorem seedExpand_idempotent (useSeed : Bool) (material : Words) (s : State) :
    seedExpand useSeed material (seedExpand useSeed material s) = seedExpand useSeed material s := by
  simp only [seedExpand_eq]

/-- Settles O32: what SEED writes is a function of its operands, and it writes every element of R20 to R26. -/
theorem seedForgetsThePriorState : Obligations.SeedForgetsThePriorState := by
  refine ⟨?_, ?_, fun s kind useSeed material h => exec_stuck h (.seed useSeed material)⟩
  · intro s1 s2 useSeed material h1 h2
    exact ⟨_, _, execSeed_live h1 useSeed material, execSeed_live h2 useSeed material,
      seedExpand_sameGenerator useSeed material s1 s2⟩
  · intro s t useSeed material h
    obtain ⟨hlive, rfl⟩ := execSeed_cases h
    have hlive' : (seedExpand useSeed material s).fault = none := hlive
    rw [exec, execSeed_live hlive', seedExpand_idempotent]

end Sys2Proof.Machine

/-! PROOFS. Scope: the Block Generator (42_block.md): FLAVOUR (R121 to R124), the order of reads and writes inside a
block (R127, R130, R131), its prologue and epilogue (R125, R129), and the command GEN (R120). -/

namespace Sys2Proof.Machine

/-! ### FLAVOUR bit by bit (R10, R121 to R124) -/

theorem getLsbD_xor_shiftLeft (a : Word) (n : Nat) {i : Nat} (hi : i < 64) :
    (a ^^^ a <<< n).getLsbD i = (a.getLsbD i ^^ (decide (n ≤ i) && a.getLsbD (i - n))) := by
  rw [BitVec.getLsbD_xor, BitVec.getLsbD_shiftLeft, decide_eq_true hi, Bool.true_and, ← decide_not]
  simp only [Nat.not_lt]

theorem getLsbD_xor_ushiftRight (a : Word) (n i : Nat) :
    (a ^^^ a >>> n).getLsbD i = (a.getLsbD i ^^ a.getLsbD (i + n)) := by
  rw [BitVec.getLsbD_xor, BitVec.getLsbD_ushiftRight, Nat.add_comm n i]

/-- Settles O25, by the bits of `a ^ (a << n)` and of `a ^ (a >> n)`; the corner values are evaluated. -/
theorem flavourBits : Obligations.FlavourBits := by
  refine ⟨fun a i hi => ⟨?_, ?_, ?_, ?_⟩, by decide, by decide, by decide, by decide, by decide⟩
  · have hnot : (flavour 0 a).getLsbD i = !(a ^^^ a <<< 21).getLsbD i := by
      rw [flavour, BitVec.getLsbD_not, decide_eq_true hi, Bool.true_and]
    rw [hnot, getLsbD_xor_shiftLeft a 21 hi]
  · exact getLsbD_xor_ushiftRight a 5 i
  · exact getLsbD_xor_shiftLeft a 12 hi
  · exact getLsbD_xor_ushiftRight a 33 i

/-! ### What a block has written at each step (R127) -/

theorem stepIndex_ne {n : Nat} {j : Index} (h : n < j.val) : Fin.ofNat 256 n ≠ j := fun e =>
  absurd (congrArg Fin.val e) (by rw [stepIndex_val (by omega)]; omega)

/-- A result word not yet reached is as it was before the block. -/
theorem blockSteps_results_ahead (n : Nat) (w : BlockWork) (j : Index) (h : n ≤ j.val) :
    readWord (blockSteps n w).results j = readWord w.results j := by
  induction n with
  | zero => rfl
  | succ n ih => rw [blockSteps_succ, blockStep_results_other (stepIndex_ne h), ih (by omega)]

/-- Settles O20: a word ahead of the steps run is untouched, and one behind them is as its own step left it. -/
theorem blockWritesEachWordOnce : Obligations.BlockWritesEachWordOnce := fun w i n hn =>
  ⟨fun h => ⟨blockSteps_memory_ahead n w i h, blockSteps_results_ahead n w i h⟩,
    fun h => ⟨blockSteps_memory_behind n w i h hn, blockSteps_results_behind n w i h hn⟩⟩

/-! ### The two indirections of a step (R130, R131) -/

/-- STEP(m) computes its y from the memory before the write and its b from the memory after it (R126). -/
theorem blockStep_indirections (m : Index) (w : BlockWork) :
    readWord (blockStep m w).memory m =
        readWord w.memory (Fin.ofNat 256 ((readWord w.memory m).toNat / 8)) + (blockStep m w).a + w.b ∧
      (blockStep m w).b =
        readWord (blockStep m w).memory (Fin.ofNat 256 ((readWord (blockStep m w).memory m).toNat / 2048)) +
          readWord w.memory m := by
  obtain ⟨_, y, rfl, -, hy, hmem, hb, -⟩ := isStep_blockStep m w
  have hwritten : readWord (blockStep m w).memory m = y := by rw [hmem, readWord_writeWord_same]
  rw [hwritten]
  exact ⟨hy, hb⟩

/-- Settles O22: each indirection reads at an index equal to m, behind it or ahead of it, and the block has written
exactly the words behind. -/
theorem indirectionsInsideAStep : Obligations.IndirectionsInsideAStep := by
  intro w0 m w x a y
  obtain ⟨hy, hb⟩ : y = readWord w.memory (Fin.ofNat 256 (x.toNat / 8)) + a + w.b ∧
      (blockStep m w).b = readWord (blockStep m w).memory (Fin.ofNat 256 (y.toNat / 2048)) + x :=
    blockStep_indirections m w
  have selects {k : Nat} {j : Index} (h : k % 256 = j.val) : Fin.ofNat 256 k = j := Fin.ext h
  refine ⟨hy, fun h => ?_, fun j h hlt => ?_, fun j h hlt => ?_, hb, fun h => ?_⟩
  · rw [hy, selects h]
  · rw [hy, selects h, blockSteps_memory_behind m.val w0 j hlt m.isLt.le]
  · rw [hy, selects h, blockSteps_memory_ahead m.val w0 j hlt.le]
  · rw [hb, selects h]

/-! ### Prologue and epilogue (R125, R129) -/

/-- Settles O24: the block's acc_c and the prologue's b are sums of words, and the largest word and 1 add up to 0. -/
theorem accCCountsBlocksAndWraps : Obligations.AccCCountsBlocksAndWraps := by
  intro s
  have hb : (blockPrologue s).b = s.accB + (s.accC + 1) := rfl
  refine ⟨BitVec.toNat_add s.accC 1, rfl, BitVec.toNat_add s.accB (s.accC + 1), fun h => ?_⟩
  have hwrap : s.accC + 1 = 0 := by rw [h]; decide
  exact ⟨hwrap, by rw [hb, hwrap, add_zero]⟩

/-- With the cursor at 256, NEXT serves results[255] without a refill (R129, R153). -/
theorem execNext_at_256 {s : State} (h : s.fault = none) (hs : s.seeded = true) (hc : s.cursor = 256) :
    execNext s = .next (serve s) ∧ (serve s).output = s.output ++ [readWord s.results 255] := by
  have hindex : cursorIndex (256 - 1) = 255 := by decide
  have hwf : s.cursor.toNat ≤ 256 := by rw [hc]; decide
  have hne : s.cursor ≠ 0 := by rw [hc]; decide
  exact ⟨by rw [execNext_live h hs hwf, refill_of_ne_zero hne], by rw [serve_output, hc, hindex]⟩

/-- Settles O23: the last step of the block leaves acc_b in results[255], which NEXT at cursor 256 serves. -/
theorem blockLeavesAccBInLastResult : Obligations.BlockLeavesAccBInLastResult := by
  refine fun s => ⟨block_accB_eq_last_result s, fun hlive hseeded => ?_⟩
  obtain ⟨hexec, hout⟩ := execNext_at_256 (s := { block s with cursor := 256 }) hlive hseeded rfl
  rw [block_accB_eq_last_result]
  exact ⟨_, hexec, hout⟩

/-! ### BLOCK and GEN (R120, R126, R128) -/

/-- Settles O19, by the chain of the states before each step of the block. -/
theorem blockIsTheChainOfSteps : Obligations.BlockIsTheChainOfSteps := isBlock_block

/-- Settles O18, by the three paths of GEN where no fault is recorded. -/
theorem genRunsOneBlock : Obligations.GenRunsOneBlock := fun s hlive =>
  ⟨fun he hs => ⟨block s, execGen_live hlive he hs, isBlock_block s, block_cursor s, block_output s⟩,
    execGen_unseeded hlive, execGen_hidden hlive⟩

end Sys2Proof.Machine

/-! PROOFS. Scope: the Output Cursor (43_cursor.md): NEXT path by path (R151, R153, R155), a run of NEXT commands within
a block and from block to block (R152, R156), and the output stream as a function of the SEED operands (R157). -/

namespace Sys2Proof.Machine

/-! ### NEXT, path by path (R151) -/

theorem cursorIndex_ofNat (c : Index) : cursorIndex (BitVec.ofNat 9 c.val) = c := by
  apply Fin.ext
  simp only [cursorIndex, Fin.ofNat, BitVec.toNat_ofNat]
  omega

/-- A cursor of c + 1 is served with the word at index c. -/
theorem serve_of_cursor {s : State} {c : Index} (hc : s.cursor.toNat = c.val + 1) :
    serve s = { s with cursor := BitVec.ofNat 9 c.val, output := s.output ++ [readWord s.results c] } := by
  have hcursor : s.cursor - 1 = BitVec.ofNat 9 c.val := by bv_omega
  simp only [serve, respond, hcursor, cursorIndex_ofNat]

theorem execNext_illFormed {s : State} (h : s.fault = none) (hs : s.seeded = true) (hc : 256 < s.cursor.toNat) :
    execNext s = .next (raiseFault (.illFormedState s.cursor) s) := by
  rw [execNext, unlessFaulted_live h, requireSeeded_seeded hs, if_pos hc]

/-- NEXT at cursor 0: one block, and the last of its results (R153). -/
theorem execNext_at_zero {s : State} (h : s.fault = none) (hs : s.seeded = true) (hc : s.cursor = 0) :
    execNext s = .next { block s with cursor := 255, output := s.output ++ [readWord (block s).results 255] } := by
  have hserve := serve_of_cursor (s := { block s with cursor := 256 }) (c := 255) rfl
  rw [execNext_live h hs (by rw [hc]; decide), refill_of_zero hc, hserve]
  rfl

/-- NEXT at cursor c + 1: the word at index c, and no block (R153). -/
theorem execNext_at_succ {s : State} (h : s.fault = none) (hs : s.seeded = true) {c : Index}
    (hc : s.cursor.toNat = c.val + 1) :
    execNext s =
      .next { s with cursor := BitVec.ofNat 9 c.val, output := s.output ++ [readWord s.results c] } := by
  have hne : s.cursor ≠ 0 := fun e => by simp [e] at hc
  rw [execNext_live h hs (by omega), refill_of_ne_zero hne, serve_of_cursor hc]

/-- Settles O13, by the law of each path of NEXT. -/
theorem nextServesOneWord : Obligations.NextServesOneWord := fun s hlive =>
  ⟨execNext_unseeded hlive, execNext_illFormed hlive,
    fun hs hc => ⟨block s, isBlock_block s, execNext_at_zero hlive hs hc⟩,
    fun _ hs hc => execNext_at_succ hlive hs hc⟩

/-- A well-formed cursor is 0, or one more than the index it serves. -/
theorem cursor_zero_or_succ {s : State} (h : s.wellFormed) :
    s.cursor = 0 ∨ ∃ c : Index, s.cursor.toNat = c.val + 1 := by
  by_cases hc : s.cursor = 0
  · exact .inl hc
  · have hpos : s.cursor.toNat ≠ 0 := fun e => hc (BitVec.eq_of_toNat_eq e)
    exact .inr ⟨⟨s.cursor.toNat - 1, by omega⟩, (Nat.sub_add_cancel (Nat.pos_of_ne_zero hpos)).symm⟩

/-- Settles O14, by the two paths of a NEXT that does not fault: at cursor 0, and above it. -/
theorem nextRegeneratesExactlyAtZero : Obligations.NextRegeneratesExactlyAtZero := by
  intro s hlive hs hwf
  obtain hc | ⟨c, hc⟩ := cursor_zero_or_succ hwf
  · refine ⟨_, execNext_at_zero hlive hs hc, fun _ => ⟨rfl, rfl, rfl, isBlock_block s⟩, fun h => absurd hc h, ?_⟩
    simp [hc]
  · refine ⟨_, execNext_at_succ hlive hs hc, ?_, fun _ => ⟨rfl, rfl, rfl, rfl, rfl⟩, ?_⟩
    · intro h
      simp [h] at hc
    · intro h
      obtain rfl : c = 0 := Fin.ext (by simpa [h] using hc.symm)
      exact ⟨rfl, rfl⟩

/-- Settles O15: both paths of a NEXT that does not fault append one word. -/
theorem nextAlwaysCompletes : Obligations.NextAlwaysCompletes := by
  intro s hlive hs hwf
  obtain hc | ⟨c, hc⟩ := cursor_zero_or_succ hwf
  · exact ⟨_, _, execNext_at_zero hlive hs hc, hlive, rfl⟩
  · exact ⟨_, _, execNext_at_succ hlive hs hc, hlive, rfl⟩

/-! ### BLOCK q times over -/

@[simp] theorem iterate_block_seeded (q : Nat) (s : State) : (block^[q] s).seeded = s.seeded := by
  induction q with
  | zero => rfl
  | succ q ih => rw [Function.iterate_succ_apply', block_seeded, ih]

@[simp] theorem iterate_block_fault (q : Nat) (s : State) : (block^[q] s).fault = s.fault := by
  induction q with
  | zero => rfl
  | succ q ih => rw [Function.iterate_succ_apply', block_fault, ih]

/-- acc_c counts the blocks (R125). -/
theorem iterate_block_accC (q : Nat) (s : State) : (block^[q] s).accC = s.accC + BitVec.ofNat 64 q := by
  induction q with
  | zero => exact (BitVec.add_zero s.accC).symm
  | succ q ih =>
    rw [Function.iterate_succ_apply', block_accC, ih, BitVec.add_assoc, BitVec.ofNat_add, BitVec.ofNat_eq_ofNat]

/-! ### A run of NEXT commands -/

/-- The request of a NEXT issued alone. -/
def nextRequest : Request := requestAlone (encode .next)

theorem step_nextRequest {s : State} {rest : List Request} (h : s.fault = none)
    (hp : s.pending = nextRequest :: rest) : step s = execNext { s with pending := rest } :=
  step_command h hp rfl (decode_next rfl)

/-- A run goes on from where it has come to. -/
theorem runSteps_succ_last {k : Nat} {s t : State} (h : runSteps k s = .next t) : runSteps (k + 1) s = step t := by
  induction k generalizing s with
  | zero =>
    obtain rfl := Host.Outcome.next.inj h
    cases hstep : step s with
    | next s' => rw [runSteps_succ_next hstep, runSteps_zero]
    | fault r => exact runSteps_succ_fault hstep 0
    | refused r => exact absurd hstep (step_not_refused s r)
  | succ k ih =>
    cases hstep : step s with
    | next s' =>
      rw [runSteps_succ_next hstep] at h ⊢
      exact ih h
    | fault r => simp [runSteps_succ_fault hstep] at h
    | refused r => exact absurd hstep (step_not_refused s r)

/-- What NEXT commands make of `s`: q further blocks run, the cursor at c, `words` served, `rest` still pending. -/
def servedState (s : State) (q c : Nat) (rest : List Request) (words : List Word) : State :=
  { block^[q] s with cursor := BitVec.ofNat 9 c, pending := rest, output := s.output ++ words }

section
variable (s : State) (q c : Nat) (rest : List Request) (words : List Word)

@[simp] theorem servedState_seeded : (servedState s q c rest words).seeded = s.seeded := iterate_block_seeded q s
@[simp] theorem servedState_fault : (servedState s q c rest words).fault = s.fault := iterate_block_fault q s
@[simp] theorem servedState_accC : (servedState s q c rest words).accC = s.accC + BitVec.ofNat 64 q :=
  iterate_block_accC q s
@[simp] theorem servedState_cursor : (servedState s q c rest words).cursor = BitVec.ofNat 9 c := rfl

end

/-- Before any NEXT nothing is served. -/
theorem servedState_none (s : State) : servedState s 0 s.cursor.toNat s.pending [] = s := by
  simp [servedState]

/-- BLOCK reads neither the cursor nor the two sides of the interface. -/
theorem block_servedState (s : State) (q c : Nat) (rest : List Request) (words : List Word) :
    block (servedState s q c rest words) = servedState s (q + 1) c rest words := by
  rw [servedState, servedState, Function.iterate_succ_apply']
  rfl

section
variable {s : State} (hlive : s.fault = none) (hs : s.seeded = true) (q : Nat) (rest : List Request)
  (words : List Word)
include hlive hs

/-- A NEXT within a block. -/
theorem step_servedState_succ (c : Index) :
    step (servedState s q (c.val + 1) (nextRequest :: rest) words) =
      .next (servedState s q c.val rest (words ++ [readWord (block^[q] s).results c])) := by
  rw [step_nextRequest (by simpa) rfl]
  refine (execNext_at_succ (s := servedState s q (c.val + 1) rest words) (by simpa) (by simpa) (c := c) ?_).trans ?_
  · rw [servedState_cursor, BitVec.toNat_ofNat]
    omega
  · simp [servedState]

/-- A NEXT that finds the block exhausted. -/
theorem step_servedState_zero :
    step (servedState s q 0 (nextRequest :: rest) words) =
      .next (servedState s (q + 1) 255 rest (words ++ [readWord (block^[q + 1] s).results 255])) := by
  rw [step_nextRequest (by simpa) rfl]
  refine (execNext_at_zero (s := servedState s q 0 rest words) (by simpa) (by simpa) rfl).trans ?_
  rw [block_servedState]
  simp [servedState]

/-- k NEXT commands within a block, by induction on k: the last of them serves index c - 1 - k (R152). -/
theorem runSteps_nexts_within_block (k : Nat) {c : Nat} (hc : c ≤ 256) (hk : k ≤ c) :
    runSteps k (servedState s q c (List.replicate k nextRequest ++ rest) words) =
      .next (servedState s q (c - k) rest
        (words ++ (List.range k).map fun j => readWord (block^[q] s).results (Fin.ofNat 256 (c - 1 - j)))) := by
  induction k generalizing rest with
  | zero => simp
  | succ k ih =>
    have hlast : c - k = (Fin.ofNat 256 (c - 1 - k)).val + 1 := by
      simp only [Fin.ofNat]
      omega
    rw [List.replicate_succ', List.append_assoc, List.singleton_append, runSteps_succ_last (ih _ (by omega)), hlast,
      step_servedState_succ hlive hs, List.range_succ, List.map_append, List.append_assoc]
    congr 2
    omega

end

/-- Settles O16: the run within a block, from the state before any NEXT. -/
theorem outputOrderIsDescending : Obligations.OutputOrderIsDescending := by
  intro s k rest hlive hs hwf hk hp
  have hrun := runSteps_nexts_within_block hlive hs 0 rest [] k hwf hk
  have hstart : servedState s 0 s.cursor.toNat (List.replicate k nextRequest ++ rest) [] = s := by
    rw [nextRequest, ← hp, servedState_none]
  rw [hstart] at hrun
  exact hrun

/-! ### From block to block (R156) -/

/-- Word j of the stream after a SEED, j counted from 0: index 255 - (j mod 256) of block j / 256. -/
def streamWord (s : State) (j : Nat) : Word :=
  readWord (block^[j / 256] s).results (Fin.ofNat 256 (255 - j % 256))

/-- NEXT number k from 0 regenerates where k is a multiple of 256 beyond 0, and serves `streamWord s k` in any case. -/
theorem step_servedState_stream {s : State} (hlive : s.fault = none) (hs : s.seeded = true) (k : Nat)
    (rest : List Request) (words : List Word) :
    step (servedState s (k / 256) (255 - k % 256) (nextRequest :: rest) words) =
      .next (servedState s ((k + 1) / 256) (255 - (k + 1) % 256) rest (words ++ [streamWord s (k + 1)])) := by
  rw [streamWord]
  by_cases hk : k % 256 = 255
  · have hdiv : (k + 1) / 256 = k / 256 + 1 := by omega
    have hmod : (k + 1) % 256 = 0 := by omega
    rw [hk, hdiv, hmod]
    exact step_servedState_zero hlive hs (k / 256) rest words
  · have hdiv : (k + 1) / 256 = k / 256 := by omega
    have hcursor : 255 - k % 256 = (Fin.ofNat 256 (255 - (k + 1) % 256)).val + 1 := by
      simp only [Fin.ofNat]
      omega
    rw [hdiv, hcursor, step_servedState_succ hlive hs]
    congr 2
    simp only [Fin.ofNat]
    omega

/-- k + 1 NEXT commands from a state with a whole block to serve. -/
theorem runSteps_nexts_after_refill {s : State} (hlive : s.fault = none) (hs : s.seeded = true) (k : Nat)
    (rest : List Request) :
    runSteps (k + 1) (servedState s 0 256 (List.replicate (k + 1) nextRequest ++ rest) []) =
      .next (servedState s (k / 256) (255 - k % 256) rest ((List.range (k + 1)).map (streamWord s))) := by
  induction k generalizing rest with
  | zero => exact (runSteps_succ_last rfl).trans (step_servedState_succ hlive hs 0 rest [] 255)
  | succ k ih =>
    rw [List.replicate_succ', List.append_assoc, List.singleton_append, runSteps_succ_last (ih _),
      step_servedState_stream hlive hs, List.range_succ (n := k + 1), List.map_append, List.map_singleton]

/-- Settles O17: SEED leaves a whole block to serve, and for k >= 1 the run of k NEXT commands is known. -/
theorem blockBoundary : Obligations.BlockBoundary := by
  intro s t0 useSeed material k hseed hp
  obtain ⟨hlive, ht0⟩ := execSeed_cases hseed
  have hlive0 : t0.fault = none := by rw [ht0, seedExpand_fault, hlive]
  have hs0 : t0.seeded = true := by rw [ht0, seedExpand_seeded]
  have hc0 : t0.cursor = 256 := by rw [ht0, seedExpand_cursor]
  have haccC0 : t0.accC = 1 := by rw [ht0, seedExpand_accC]
  cases k with
  | zero =>
    exact ⟨t0, rfl, hlive0, hp, (List.append_nil _).symm, by omega, fun _ => ⟨rfl, rfl, rfl, rfl, rfl, rfl, rfl⟩⟩
  | succ k =>
    have hrun := runSteps_nexts_after_refill hlive0 hs0 k []
    have hstart : servedState t0 0 256 (List.replicate (k + 1) nextRequest ++ []) [] = t0 := by
      have hnone := servedState_none t0
      rwa [hc0, hp, ← List.append_nil (List.replicate _ _)] at hnone
    rw [hstart] at hrun
    refine ⟨_, hrun, by rwa [State.live, servedState_fault], rfl, rfl, fun _ => ⟨?_, ?_⟩, fun hk => ?_⟩
    · rw [servedState_accC, haccC0, Nat.add_sub_cancel]
    · rw [servedState_cursor, BitVec.toNat_ofNat, Nat.add_sub_cancel]
      omega
    · rw [Nat.div_eq_of_lt (by omega : k < 256)]
      exact ⟨rfl, rfl, rfl, rfl, rfl, rfl, rfl⟩

/-! ### The past of the output stream (R157) -/

/-- The same state with `past` before its output stream. -/
def State.withPast (past : List Word) (s : State) : State := { s with output := past ++ s.output }

section
variable (past : List Word) (s : State)

@[simp] theorem withPast_cursor : (s.withPast past).cursor = s.cursor := rfl
@[simp] theorem withPast_seeded : (s.withPast past).seeded = s.seeded := rfl
@[simp] theorem withPast_fault : (s.withPast past).fault = s.fault := rfl

theorem withPast_withPending (requests : List Request) :
    { s.withPast past with pending := requests } = { s with pending := requests }.withPast past := rfl

theorem raiseFault_withPast (kind : FaultKind) :
    raiseFault kind (s.withPast past) = (raiseFault kind s).withPast past := rfl

theorem block_withPast : block (s.withPast past) = (block s).withPast past := rfl

theorem seedExpand_withPast (useSeed : Bool) (material : Words) :
    seedExpand useSeed material (s.withPast past) = (seedExpand useSeed material s).withPast past := rfl

theorem refill_withPast : refill (s.withPast past) = (refill s).withPast past := by
  by_cases hc : s.cursor = 0
  · rw [refill_of_zero hc, refill_of_zero (s := s.withPast past) hc, block_withPast]
    rfl
  · rw [refill_of_ne_zero hc, refill_of_ne_zero (s := s.withPast past) hc]

/-- A response goes to the end of the stream, whatever its past. -/
theorem serve_withPast : serve (s.withPast past) = (serve s).withPast past := by
  simp only [serve, respond, State.withPast, List.append_assoc]

end

/-- A change of state that leaves `fault` goes past the guard of R172. -/
theorem mapNext_unlessFaulted_of_fault {f : State → State} {s : State} (h : (f s).fault = s.fault)
    (effect : Outcome) : mapNext f (unlessFaulted s effect) = unlessFaulted (f s) (mapNext f effect) := by
  rw [unlessFaulted, unlessFaulted, h]
  cases s.fault <;> rfl

/-- A change of state that leaves `seeded` goes past the guard of R151. -/
theorem mapNext_requireSeeded_of_seeded {f : State → State} {s : State} (h : (f s).seeded = s.seeded)
    {cmd : Byte} (hraise : raiseFault (.unseeded cmd) (f s) = f (raiseFault (.unseeded cmd) s)) (effect : Outcome) :
    mapNext f (requireSeeded cmd s effect) = requireSeeded cmd (f s) (mapNext f effect) := by
  rw [requireSeeded, requireSeeded, h, hraise]
  cases s.seeded <;> rfl

/-- A change of state that commutes with a step commutes with a run. -/
theorem runSteps_mapNext {f : State → State} (hf : ∀ s, step (f s) = mapNext f (step s)) (k : Nat) (s : State) :
    runSteps k (f s) = mapNext f (runSteps k s) := by
  induction k generalizing s with
  | zero => rfl
  | succ k ih =>
    have hstep := hf s
    cases h : step s with
    | next t => rw [runSteps_succ_next h, runSteps_succ_next (hstep.trans (congrArg _ h)), ih]
    | fault r => rw [runSteps_succ_fault h, runSteps_succ_fault (hstep.trans (congrArg _ h)), mapNext_fault]
    | refused r => exact absurd h (step_not_refused s r)

section
variable (past : List Word) (s : State)

/-- No command reads the output stream. -/
theorem exec_withPast (i : Instr) : exec i (s.withPast past) = mapNext (State.withPast past) (exec i s) := by
  cases i with
  | next =>
    simp only [exec, execNext, mapNext_unlessFaulted_of_fault (withPast_fault past s),
      mapNext_requireSeeded_of_seeded (withPast_seeded past s) (raiseFault_withPast past s _),
      apply_ite (mapNext _), mapNext_next, withPast_cursor, raiseFault_withPast, refill_withPast, serve_withPast]
  | seed useSeed material =>
    simp only [exec, execSeed, mapNext_unlessFaulted_of_fault (withPast_fault past s), mapNext_next,
      seedExpand_withPast]
  | gen =>
    simp only [exec, execGen, mapNext_unlessFaulted_of_fault (withPast_fault past s)]
    by_cases he : s.config.exposeGenerate = true
    · have he' : (s.withPast past).config.exposeGenerate = true := he
      rw [if_pos he, if_pos he', block_withPast,
        mapNext_requireSeeded_of_seeded (withPast_seeded past s) (raiseFault_withPast past s _), mapNext_next]
    · have he' : ¬(s.withPast past).config.exposeGenerate = true := he
      rw [if_neg he, if_neg he', raiseFault_withPast, mapNext_next]

/-- No step reads the output stream. -/
theorem step_withPast : step (s.withPast past) = mapNext (State.withPast past) (step s) := by
  obtain ⟨kind, hf, e⟩ | ⟨hf, hp, e⟩ | ⟨r, rest, hf, hp, hr, e⟩ | ⟨r, rest, _, hf, hp, hr, hd, e⟩ |
    ⟨r, rest, i, hf, hp, hr, hd, e⟩ := step_cases s <;> rw [e]
  · exact step_stuck hf
  · exact step_idle hf hp
  · exact step_race hf hp hr
  · exact step_reserved hf hp hr hd
  · rw [step_command (s := s.withPast past) hf hp hr hd, withPast_withPending, exec_withPast]

/-- Two pasts of one run: the words it appends are the same. -/
theorem sameContinuation_withPast (past' : List Word) {o : Outcome} (h : ∀ r, o ≠ .refused r) :
    SameContinuation past past' (mapNext (State.withPast past) o) (mapNext (State.withPast past') o) := by
  cases o with
  | next t => exact ⟨⟨rfl, rfl, rfl, rfl, rfl, rfl, rfl⟩, rfl, rfl, rfl, t.output, rfl, rfl⟩
  | fault r => rfl
  | refused r => exact h r rfl

end

theorem runSteps_not_refused (k : Nat) (s : State) (r : Refusal) : runSteps k s ≠ .refused r := by
  induction k generalizing s with
  | zero => simp
  | succ k ih =>
    cases h : step s with
    | next t => rw [runSteps_succ_next h]; exact ih t
    | fault r' => simp [runSteps_succ_fault h]
    | refused r' => exact absurd h (step_not_refused s r')

/-! ### The output stream is a function of the SEED operands (R157) -/

/-- The state of a configuration that has taken a SEED first after reset, with `rest` still pending. -/
def seededLaunch (cfg : Config) (rest : List Request) (useSeed : Bool) (material : Words) : State :=
  seedExpand useSeed material { State.launch cfg ResetContents.zero with pending := rest }

/-- Any live state that takes a SEED is from there on as if just reset, but for the past of its output (R110). -/
theorem step_seed_eq_seededLaunch {s : State} {t : Transaction} {rest : List Request} {useSeed : Bool}
    {material : Words} (hlive : s.fault = none) (hp : s.pending = { transaction := t, issue := .alone } :: rest)
    (hd : decode s.config t = .ok (.seed useSeed material)) :
    step s = .next ((seededLaunch s.config rest useSeed material).withPast s.output) := by
  rw [step_command hlive hp rfl hd, exec, execSeed_live (s := { s with pending := rest }) hlive, seededLaunch,
    seedExpand_eq, seedExpand_eq]
  simp [State.withPast, State.launch, hlive]

/-- Settles O48: both go on as the same freshly seeded one, and no step reads the output stream. -/
theorem outputDeterminedBySeed : Obligations.OutputDeterminedBySeed := by
  intro s1 s2 t rest useSeed material k hlive1 hlive2 hconfig hp1 hp2 hd
  have hstep1 := step_seed_eq_seededLaunch hlive1 hp1 hd
  have hstep2 := step_seed_eq_seededLaunch hlive2 (hp2.trans hp1) (hconfig ▸ hd)
  rw [← hconfig] at hstep2
  rw [runSteps_succ_next hstep1, runSteps_succ_next hstep2, runSteps_mapNext (step_withPast _),
    runSteps_mapNext (step_withPast _)]
  exact sameContinuation_withPast _ _ (runSteps_not_refused k _)

end Sys2Proof.Machine

/-! PROOFS. Scope: faults (60_exceptions.md): the cause of each fault kind (R171, R173), a fault as its command's only
and lasting effect (R172), instances beside each other (R179), and the idle block (R182). -/

namespace Sys2Proof.Machine

/-! ### The cause of each fault kind (R171, R173) -/

/-- The cause of a fault kind, for a request `r` that a live state `s` takes: what R171 asks of it, and that no kind
checked before it in the order of R173 has its cause. -/
def FaultCause (s : State) (r : Request) : FaultKind → Prop
  | .race c => r.issue ≠ .alone ∧ c = r.transaction.cmd
  | .reservedCommand c =>
    r.issue = .alone ∧ (∃ e, decode s.config r.transaction = .error e) ∧ c = r.transaction.cmd
  | .unseeded c =>
    r.issue = .alone ∧ (decode s.config r.transaction = .ok .next ∨ decode s.config r.transaction = .ok .gen) ∧
      s.seeded = false ∧ c = r.transaction.cmd
  | .illFormedState c =>
    r.issue = .alone ∧ decode s.config r.transaction = .ok .next ∧ s.seeded = true ∧ 256 < s.cursor.toNat ∧
      c = s.cursor

section
variable {s t : State} {r : Request} {rest : List Request} {kind : FaultKind}

/-- A decoded command records a fault only for its cause. -/
theorem faultCause_of_exec {i : Instr} (hlive : s.fault = none) (hr : r.issue = .alone)
    (hd : decode s.config r.transaction = .ok i) (h : exec i { s with pending := rest } = .next t)
    (hkind : t.fault = some kind) : FaultCause s r kind := by
  cases i with
  | next =>
    have hcmd := decode_eq_next_iff.mp hd
    obtain ⟨-, ⟨hs, rfl⟩ | ⟨hs, hc, rfl⟩ | ⟨-, -, rfl⟩⟩ := execNext_cases h
    · obtain rfl := Option.some.inj hkind
      exact ⟨hr, .inl hd, hs, hcmd.symm⟩
    · obtain rfl := Option.some.inj hkind
      exact ⟨hr, hd, hs, hc, rfl⟩
    · simp [hlive] at hkind
  | seed useSeed material =>
    obtain ⟨-, rfl⟩ := execSeed_cases h
    simp [hlive] at hkind
  | gen =>
    obtain ⟨hcmd, he⟩ := decode_eq_gen_iff.mp hd
    obtain ⟨-, ⟨he', -⟩ | ⟨-, hs, rfl⟩ | ⟨-, -, rfl⟩⟩ := execGen_cases h
    · simp [he] at he'
    · obtain rfl := Option.some.inj hkind
      exact ⟨hr, .inr hd, hs, hcmd.symm⟩
    · simp [hlive] at hkind

/-- A step records a fault only for its cause. -/
theorem faultCause_of_step (hlive : s.fault = none) (hp : s.pending = r :: rest) (h : step s = .next t)
    (hkind : t.fault = some kind) : FaultCause s r kind := by
  by_cases hr : r.issue = .alone
  · cases hd : decode s.config r.transaction with
    | error e =>
      obtain rfl := Host.Outcome.next.inj ((step_reserved hlive hp hr hd).symm.trans h)
      obtain rfl := Option.some.inj hkind
      exact ⟨hr, ⟨e, hd⟩, rfl⟩
    | ok i => exact faultCause_of_exec hlive hr hd ((step_command hlive hp hr hd).symm.trans h) hkind
  · obtain rfl := Host.Outcome.next.inj ((step_race hlive hp hr).symm.trans h)
    obtain rfl := Option.some.inj hkind
    exact ⟨hr, rfl⟩

/-- Where a fault kind has its cause, the step takes the request, records the fault and does nothing else (R172). -/
theorem step_of_faultCause (hlive : s.fault = none) (hp : s.pending = r :: rest) (h : FaultCause s r kind) :
    step s = .next (raiseFault kind { s with pending := rest }) := by
  cases kind with
  | race c =>
    obtain ⟨hr, rfl⟩ := h
    exact step_race hlive hp hr
  | reservedCommand c =>
    obtain ⟨hr, ⟨e, hd⟩, rfl⟩ := h
    exact step_reserved hlive hp hr hd
  | unseeded c =>
    obtain ⟨hr, hd | hd, hs, rfl⟩ := h
    · rw [step_command hlive hp hr hd, decode_eq_next_iff.mp hd]
      exact execNext_unseeded (s := { s with pending := rest }) hlive hs
    · obtain ⟨hcmd, he⟩ := decode_eq_gen_iff.mp hd
      rw [step_command hlive hp hr hd, hcmd]
      exact execGen_unseeded (s := { s with pending := rest }) hlive he hs
  | illFormedState c =>
    obtain ⟨hr, hd, hs, hc, rfl⟩ := h
    rw [step_command hlive hp hr hd]
    exact execNext_illFormed (s := { s with pending := rest }) hlive hs hc

theorem step_records_iff_faultCause (hlive : s.fault = none) (hp : s.pending = r :: rest) (kind : FaultKind) :
    (∃ t, step s = .next t ∧ t.fault = some kind) ↔ FaultCause s r kind :=
  ⟨fun ⟨_, h, hkind⟩ => faultCause_of_step hlive hp h hkind, fun h => ⟨_, step_of_faultCause hlive hp h, rfl⟩⟩

/-- A step of a live state that records a fault does nothing else but take its request (R172). -/
theorem eq_raiseFault_of_step (hlive : s.fault = none) (h : step s = .next t) (hkind : t.fault = some kind) :
    t = raiseFault kind { s with pending := s.pending.tail } := by
  obtain hp | ⟨r, rest, hp⟩ : s.pending = [] ∨ ∃ r rest, s.pending = r :: rest := by
    cases s.pending <;> simp
  · obtain rfl := Host.Outcome.next.inj ((step_idle hlive hp).symm.trans h)
    simp [hlive] at hkind
  · have hraise := step_of_faultCause hlive hp (faultCause_of_step hlive hp h hkind)
    rw [hp]
    exact Host.Outcome.next.inj (h.symm.trans hraise)

end

/-- Settles O11: a step records each kind exactly for the cause `FaultCause` gives it. -/
theorem faultKindsCausesAndPriority : Obligations.FaultKindsCausesAndPriority := by
  intro s r rest hlive hp
  have hiff := step_records_iff_faultCause hlive hp
  exact ⟨fun c => hiff (.race c), fun c => hiff (.reservedCommand c), fun c => hiff (.unseeded c),
    fun c => hiff (.illFormedState c)⟩

/-! ### A fault is the only effect, and lasts (R172) -/

/-- Settles O12: a recorded fault has its cause, which leaves the step nothing else to do; a faulted state is stuck
at step, command and run. -/
theorem faultIsTheOnlyEffectAndSticky : Obligations.FaultIsTheOnlyEffectAndSticky :=
  ⟨fun _ _ _ => eq_raiseFault_of_step,
    fun _ _ h => ⟨step_stuck h, exec_stuck h, runSteps_succ_fault (step_stuck h)⟩, launch_fault⟩

/-- Only a live state has a step. -/
theorem live_of_step_eq_next {s t : State} (h : step s = .next t) : s.live := by
  by_contra hf
  obtain ⟨kind, hkind⟩ := Option.ne_none_iff_exists'.mp hf
  simp [step_stuck hkind] at h

/-- A step of a run that goes on to a next state. -/
theorem runSteps_succ_eq_next {k : Nat} {s t : State} (h : runSteps (k + 1) s = .next t) :
    ∃ s', step s = .next s' ∧ runSteps k s' = .next t := by
  cases hstep : step s with
  | next s' => exact ⟨s', rfl, (runSteps_succ_next hstep k).symm.trans h⟩
  | fault r => simp [runSteps_succ_fault hstep] at h
  | refused r => exact absurd hstep (step_not_refused s r)

/-- A run that ends live was live all along. -/
theorem runSteps_live_before {j k : Nat} (hj : j ≤ k) {s t : State} (h : runSteps k s = .next t) (hlive : t.live) :
    ∃ u, runSteps j s = .next u ∧ u.live := by
  induction k generalizing j s with
  | zero =>
    obtain rfl := Nat.le_zero.mp hj
    exact ⟨t, h, hlive⟩
  | succ k ih =>
    obtain ⟨s', hstep, hrun⟩ := runSteps_succ_eq_next h
    cases j with
    | zero => exact ⟨s, runSteps_zero s, live_of_step_eq_next hstep⟩
    | succ j =>
      rw [runSteps_succ_next hstep]
      exact ih (Nat.le_of_succ_le_succ hj) hrun

/-- Settles O47, by induction on the run: each of its steps starts from a live state. -/
theorem completedRunNeverFaulted : Obligations.CompletedRunNeverFaulted :=
  fun _ _ _ ⟨hrun, hlive, _⟩ _ hj => runSteps_live_before hj hrun hlive

/-! ### Instances (R179) -/

/-- A step of the k-th state of the list is that state's step, and replaces it alone. -/
theorem stepInstance_eq_next_iff {k : Nat} {all all' : List State} :
    stepInstance k all = some (.next all') ↔
      ∃ s s', all[k]? = some s ∧ step s = .next s' ∧ all' = all.set k s' := by
  unfold stepInstance
  constructor
  · intro h
    split at h
    · cases h
    · rename_i s hs
      split at h
      · rename_i s' hstep
        exact ⟨s, s', hs, hstep, by simpa using h.symm⟩
      · simp at h
      · simp at h
  · rintro ⟨s, s', hs, hstep, rfl⟩
    simp [hs, hstep]

/-- Settles O49: two steps write different places of the list, and neither reads the place the other writes. -/
theorem instancesAreIndependent : Obligations.InstancesAreIndependent := by
  constructor
  · intro k all all' h
    obtain ⟨s, s', -, -, rfl⟩ := stepInstance_eq_next_iff.mp h
    exact ⟨List.length_set, fun j hj => List.getElem?_set_ne hj.symm⟩
  · intro j k all allJ allK hjk hJ hK
    obtain ⟨sj, tj, hsj, hstepj, rfl⟩ := stepInstance_eq_next_iff.mp hJ
    obtain ⟨sk, tk, hsk, hstepk, rfl⟩ := stepInstance_eq_next_iff.mp hK
    have hsk' : (all.set j tj)[k]? = some sk := (List.getElem?_set_ne hjk).trans hsk
    have hsj' : (all.set k tk)[j]? = some sj := (List.getElem?_set_ne hjk.symm).trans hsj
    exact ⟨(all.set j tj).set k tk, stepInstance_eq_next_iff.mpr ⟨sk, tk, hsk', hstepk, rfl⟩,
      stepInstance_eq_next_iff.mpr ⟨sj, tj, hsj', hstepj, List.set_comm _ _ hjk⟩⟩

/-! ### The idle block (R182) -/

/-- Settles O10, by the law of a step with no request pending. -/
theorem idleBlockHoldsItsState : Obligations.IdleBlockHoldsItsState := fun _ => step_idle

end Sys2Proof.Machine

/-! PROOFS. Scope: reset and hazards (70_reset_and_hazards.md): the state after reset (R190) and what it lets run before
a SEED (R191), the configuration along a run (R192), and where a run ends (R200, with R172). -/

namespace Sys2Proof.Machine

/-! ### The state after reset, and the commands before a SEED (R190, R191) -/

/-- Settles O43: the launch's fields are the draw's, so the values themselves are the draw. -/
theorem launchState : Obligations.LaunchState := by
  intro cfg memory results accA accB accC cursor hcursor
  exact ⟨{ memory, results, accA, accB, accC, cursor }, decide_eq_true hcursor,
    launch_seeded _ _, launch_fault _ _, launch_memory _ _, launch_results _ _, launch_accA _ _, launch_accB _ _,
    launch_accC _ _, launch_cursor _ _⟩

/-- Settles O45, by what each command does on a live instance: NEXT and GEN check `seeded`, SEED sets it. -/
theorem bootNeedsASeed : Obligations.BootNeedsASeed := by
  intro s hlive hs
  refine ⟨execNext_unseeded hlive hs, fun he => execGen_unseeded hlive he hs, fun useSeed material => ?_⟩
  exact ⟨seedExpand useSeed material s, execSeed_live hlive useSeed material,
    (seedExpand_fault s useSeed material).trans hlive, seedExpand_seeded s useSeed material⟩

/-! ### The frame of a step and of a run: configuration and requests (R192, R200) -/

/-- No command changes the configuration or the requests still pending. -/
theorem exec_config_pending {i : Instr} {s t : State} (h : exec i s = .next t) :
    t.config = s.config ∧ t.pending = s.pending := by
  cases i with
  | next =>
    obtain ⟨hconfig, hpending, -⟩ := nextFrame s t h
    exact ⟨hconfig, hpending⟩
  | seed useSeed material =>
    obtain ⟨-, hconfig, hpending, -⟩ := seedAndGenFrame.1 s t useSeed material h
    exact ⟨hconfig, hpending⟩
  | gen =>
    obtain ⟨-, hconfig, hpending, -⟩ := seedAndGenFrame.2 s t h
    exact ⟨hconfig, hpending⟩

/-- A step leaves the configuration and takes the oldest request, if there is one, whether or not it faults. -/
theorem step_config_pending {s t : State} (h : step s = .next t) :
    t.config = s.config ∧ t.pending = s.pending.tail := by
  obtain ⟨_, _, e⟩ | ⟨_, hp, e⟩ | ⟨r, rest, _, hp, _, e⟩ | ⟨r, rest, _, _, hp, _, _, e⟩ |
    ⟨r, rest, i, _, hp, _, _, e⟩ := step_cases s <;> rw [e] at h
  · cases h
  · obtain rfl := Host.Outcome.next.inj h
    simp [hp]
  · obtain rfl := Host.Outcome.next.inj h
    simp [hp]
  · obtain rfl := Host.Outcome.next.inj h
    simp [hp]
  · simpa [hp] using exec_config_pending h

theorem runSteps_config {k : Nat} {s t : State} (h : runSteps k s = .next t) : t.config = s.config := by
  induction k generalizing s with
  | zero => rw [Host.Outcome.next.inj h]
  | succ k ih =>
    obtain ⟨s', hstep, hrun⟩ := runSteps_succ_eq_next h
    exact (ih hrun).trans (step_config_pending hstep).1

theorem runSteps_pending {k : Nat} {s t : State} (h : runSteps k s = .next t) : t.pending = s.pending.drop k := by
  induction k generalizing s with
  | zero => rw [Host.Outcome.next.inj h, List.drop_zero]
  | succ k ih =>
    obtain ⟨s', hstep, hrun⟩ := runSteps_succ_eq_next h
    rw [ih hrun, (step_config_pending hstep).2, List.drop_tail]

/-- Settles O41: every step of the run leaves the configuration. -/
theorem configNeverChanges : Obligations.ConfigNeverChanges := fun _ _ _ => runSteps_config

/-! ### Where a run stops (R172, R200) -/

/-- A step stops only on an instance whose fault is recorded (R172). -/
theorem step_eq_fault {s : State} {r : Fault} (h : step s = .fault r) :
    ∃ kind, s.fault = some kind ∧ r = .stuck kind := by
  obtain ⟨kind, hf, e⟩ | ⟨_, _, e⟩ | ⟨_, _, _, _, _, e⟩ | ⟨_, _, _, _, _, _, _, e⟩ | ⟨_, rest, i, hf, _, _, _, e⟩ :=
    step_cases s <;> rw [e] at h
  · exact ⟨kind, hf, (Host.Outcome.fault.inj h).symm⟩
  · cases h
  · cases h
  · cases h
  · obtain ⟨t, ht⟩ := exec_completes (s := { s with pending := rest }) hf i
    cases ht.symm.trans h

/-- A run that stops has come, in fewer steps, to a state whose recorded fault stops it. -/
theorem runSteps_eq_fault {k : Nat} {s : State} {r : Fault} (h : runSteps k s = .fault r) :
    ∃ j < k, ∃ (t : State) (kind : FaultKind), runSteps j s = .next t ∧ t.fault = some kind ∧ r = .stuck kind := by
  induction k generalizing s with
  | zero => cases h
  | succ k ih =>
    cases hstep : step s with
    | next s' =>
      obtain ⟨j, hj, t, kind, hrun, hstop⟩ := ih ((runSteps_succ_next hstep k).symm.trans h)
      exact ⟨j + 1, Nat.succ_lt_succ hj, t, kind, (runSteps_succ_next hstep j).trans hrun, hstop⟩
    | fault r' =>
      obtain rfl := Host.Outcome.fault.inj ((runSteps_succ_fault hstep k).symm.trans h)
      obtain ⟨kind, hstop⟩ := step_eq_fault hstep
      exact ⟨0, k.succ_pos, s, kind, runSteps_zero s, hstop⟩
    | refused r' => exact absurd hstep (step_not_refused s r')

/-- Settles O46: no step is refused, each takes one request, and only a recorded fault stops one. -/
theorem runsTerminate : Obligations.RunsTerminate :=
  ⟨runSteps_not_refused, fun _ _ _ => runSteps_pending, fun _ _ _ => runSteps_eq_fault⟩

end Sys2Proof.Machine
